-- ==== Sys2Proof/Word.lean ====
section
/-!
DEFINITION. The bus values of the machine, each typed by its width so that an over-wide value cannot be written down
(00_scope.md R7, R8, R9; 93_implementation_defined.md U2). The widths are parameters, the structure `Widths`; everything but
the reference encoding is written for any of them, and the reference instance takes `Widths.reference` (decisions D1, D2;
assumption log 1). A value of a type here wraps modulo 2^width, which is R9's "truncates/wraps at 2^width".
-/

namespace Sys2Proof

/-- The four widths of 00_scope.md Table R7. -/
structure Widths where
  /-- `INSTR_WIDTH`: bits of an instruction word -/
  instr : Nat
  /-- `DATA_WIDTH`: accumulator, general registers, data-memory words, immediate data -/
  data : Nat
  /-- `ADDR_WIDTH`: pc, dmar, imar, immediate address, the addresses of both memories -/
  addr : Nat
  /-- `IDX_WIDTH`: a register index -/
  idx : Nat
  deriving DecidableEq, Repr

/-- The column "reference" of Table R7: 16, 8, 8 and 4 bits (decisions D1, D2). DESIGN CHOICE (assumption log 1). -/
abbrev Widths.reference : Widths := ⟨16, 8, 8, 4⟩

/-- An instruction word of `INSTR_WIDTH` bits (R7). -/
abbrev Widths.Word (W : Widths) := BitVec W.instr

/-- A data value of `DATA_WIDTH` bits (R7). -/
abbrev Widths.Data (W : Widths) := BitVec W.data

/-- An address of `ADDR_WIDTH` bits (R7). -/
abbrev Widths.Addr (W : Widths) := BitVec W.addr

/-- A register index of `IDX_WIDTH` bits (R7). -/
abbrev Widths.Idx (W : Widths) := BitVec W.idx

/-- A data value of the reference instance. -/
abbrev Data := BitVec 8

/-- An address of the reference instance. -/
abbrev Addr := BitVec 8

/-- An instruction word of the reference instance (30_encoding.md R93). -/
abbrev InstrWord := BitVec 16

/-- A register index of the reference instance (30_encoding.md R93). -/
abbrev RegIdx := BitVec 4

/-- An ALU function code, as wide as the `sub` field that carries it (30_encoding.md R93). -/
abbrev FuncCode := BitVec 4

/-- A branch condition code, as wide as the `sub` field that carries it (30_encoding.md R93). -/
abbrev CondCode := BitVec 4

/-- A byte of a program image handed to `load_binary` (20_memory.md R63, R82); the only place bytes appear. -/
abbrev Byte := BitVec 8

/-- One memory: (address, word) pairs, only the words that differ from what an unlisted address reads as. The data memory of
the reference instance, `Memory 8`, is a list of `Host.Cell`; the instruction memory holds a whole instruction word at each
address, since nothing below a word is addressable (20_memory.md R61, R63; assumption log 27). -/
abbrev Memory (w : Nat) := List (Nat × BitVec w)

/-- A register-file array: one place for every index of `n` bits (10_state.md R22). -/
abbrev Regs (α : Type) (n : Nat := 4) := Vector α (Nat.pow 2 n)

end Sys2Proof
end

