-- ==== Sys2Proof/Syntax.lean ====
section
/-!
DEFINITION. The instruction set: one constructor per row of spec/opcode_table.json (30_encoding.md R96), with exactly the
operand fields that row has (R90, R95). An instruction carries no other field.
-/

namespace Sys2Proof

/-- The twenty-three instructions of 30_encoding.md Table R96, in the table's order. -/
inductive Instr where
  | addi (imm : Data)      -- ALU-immediate, function ADD (R149)
  | subi (imm : Data)      -- ALU-immediate, function SUB (R150)
  | andi (imm : Data)      -- ALU-immediate, function AND (R151)
  | ori  (imm : Data)      -- ALU-immediate, function OR (R152)
  | xori (imm : Data)      -- ALU-immediate, function XOR (R153)
  | add (idx : RegIdx)     -- ALU-register, function ADD (R154)
  | sub (idx : RegIdx)     -- ALU-register, function SUB (R155)
  | and (idx : RegIdx)     -- ALU-register, function AND (R156)
  | or  (idx : RegIdx)     -- ALU-register, function OR (R157)
  | xor (idx : RegIdx)     -- ALU-register, function XOR (R158)
  | set (imm : Data)       -- accumulator from immediate (R170)
  | get (idx : RegIdx)     -- accumulator from register (R171)
  | put (idx : RegIdx)     -- register from accumulator (R172)
  | load                   -- accumulator from data memory at dmar (R180)
  | store                  -- data memory at dmar from accumulator (R181)
  | bcc (target : Addr)    -- branch if carry clear (R192)
  | bcs (target : Addr)    -- branch if carry set (R193)
  | bvc (target : Addr)    -- branch if overflow clear (R194)
  | bvs (target : Addr)    -- branch if overflow set (R195)
  | jmpi (offset : Addr)   -- jump immediate-relative (R196)
  | jmpr                   -- jump register-relative (R197)
  | jmpa                   -- jump register-absolute (R198)
  | halt                   -- terminal (R140)
  deriving DecidableEq, Repr

end Sys2Proof
end

