-- ==== Sys2Proof/Decode.lean ====
section
/-!
DEFINITION. The reference decoder and encoder (30_encoding.md part 2: R93 to R104, decision D5; assumption log 5) and the
opcode table they are checked against (R96). Decoding is total: a word is an instruction or is reserved, with the reason R99
gives.
-/

namespace Sys2Proof

/-- Why a word is reserved: the four cases of 30_encoding.md R99. -/
inductive Reserved where
  /-- `op` in 0xB..0xE -/
  | unassignedOpcode
  /-- an ALU form with `sub >= 5` -/
  | unassignedFunction
  /-- a branch with `sub >= 4` -/
  | unassignedCondition
  /-- a must-be-zero bit of Table R94 is set -/
  | mustBeZero
  deriving DecidableEq, Repr

/-- What the reference decoder answers (30_encoding.md R92, R104). -/
inductive Decoding where
  | instr (i : Instr)
  | reserved (why : Reserved)
  deriving DecidableEq, Repr

/-- The decoded instruction, if the word is not reserved. -/
def Decoding.instr? : Decoding → Option Instr
  | .instr i => some i
  | .reserved _ => none

/-- `op = w[15:12]` (30_encoding.md R93). -/
def opField (w : InstrWord) : BitVec 4 := w.extractLsb' 12 4

/-- `sub = w[11:8]` (30_encoding.md R93). -/
def subField (w : InstrWord) : BitVec 4 := w.extractLsb' 8 4

/-- `arg = w[7:0]`, unextended and unscaled (30_encoding.md R93, R95). -/
def argField (w : InstrWord) : BitVec 8 := w.extractLsb' 0 8

/-- `hi = w[7:4]`, must be zero in a register form (30_encoding.md R104). -/
def hiField (w : InstrWord) : BitVec 4 := w.extractLsb' 4 4

/-- `idx = w[3:0]` (30_encoding.md R95). -/
def idxField (w : InstrWord) : RegIdx := w.extractLsb' 0 4

/-- ALU-immediate: the function code picks the instruction (30_encoding.md R96, R97). -/
def decodeAluImm (w : InstrWord) : Decoding :=
  match (subField w).toNat with
  | 0 => .instr (.addi (argField w))
  | 1 => .instr (.subi (argField w))
  | 2 => .instr (.andi (argField w))
  | 3 => .instr (.ori (argField w))
  | 4 => .instr (.xori (argField w))
  | _ => .reserved .unassignedFunction

/-- ALU-register: `w[7:4]` must be zero (30_encoding.md R94, R96, R97). -/
def decodeAluReg (w : InstrWord) : Decoding :=
  match (subField w).toNat with
  | 0 => if hiField w = 0 then .instr (.add (idxField w)) else .reserved .mustBeZero
  | 1 => if hiField w = 0 then .instr (.sub (idxField w)) else .reserved .mustBeZero
  | 2 => if hiField w = 0 then .instr (.and (idxField w)) else .reserved .mustBeZero
  | 3 => if hiField w = 0 then .instr (.or (idxField w)) else .reserved .mustBeZero
  | 4 => if hiField w = 0 then .instr (.xor (idxField w)) else .reserved .mustBeZero
  | _ => .reserved .unassignedFunction

/-- Branches: the condition code picks the instruction (30_encoding.md R96, R98). -/
def decodeBranch (w : InstrWord) : Decoding :=
  match (subField w).toNat with
  | 0 => .instr (.bcc (argField w))
  | 1 => .instr (.bcs (argField w))
  | 2 => .instr (.bvc (argField w))
  | 3 => .instr (.bvs (argField w))
  | _ => .reserved .unassignedCondition

/-- A form with `sub` must-be-zero and an 8-bit argument (SET, JMPI) (30_encoding.md R94). -/
def decodeArgForm (w : InstrWord) (i : BitVec 8 → Instr) : Decoding :=
  if subField w = 0 then .instr (i (argField w)) else .reserved .mustBeZero

/-- A form with `sub` and `w[7:4]` must-be-zero and a register index (GET, PUT) (30_encoding.md R94). -/
def decodeRegForm (w : InstrWord) (i : RegIdx → Instr) : Decoding :=
  if subField w = 0 ∧ hiField w = 0 then .instr (i (idxField w)) else .reserved .mustBeZero

/-- A form with no operand: `sub` and `arg` must be zero (30_encoding.md R94). -/
def decodeBareForm (w : InstrWord) (i : Instr) : Decoding :=
  if subField w = 0 ∧ argField w = 0 then .instr i else .reserved .mustBeZero

/-- The reference `DECODE` (30_encoding.md R104), a pure function of the one word (R101). -/
def decode (w : InstrWord) : Decoding :=
  match (opField w).toNat with
  | 0x0 => decodeAluImm w
  | 0x1 => decodeAluReg w
  | 0x2 => decodeArgForm w .set
  | 0x3 => decodeRegForm w .get
  | 0x4 => decodeRegForm w .put
  | 0x5 => decodeBareForm w .load
  | 0x6 => decodeBareForm w .store
  | 0x7 => decodeBranch w
  | 0x8 => decodeArgForm w .jmpi
  | 0x9 => decodeBareForm w .jmpr
  | 0xA => decodeBareForm w .jmpa
  | 0xF => decodeBareForm w .halt
  | _ => .reserved .unassignedOpcode

/-- The word with fields `op`, `sub`, `arg` (30_encoding.md R93). -/
def wordOf (op sub : BitVec 4) (arg : BitVec 8) : InstrWord := op ++ sub ++ arg

/-- A register index as an argument field: `arg[7:4] = 0`, `arg[3:0] = idx` (30_encoding.md R93). -/
def regArg (idx : RegIdx) : BitVec 8 := (0 : BitVec 4) ++ idx

/-- `ENCODE` (30_encoding.md R104, Table R94): the instruction's word. -/
def encode : Instr → InstrWord
  | .addi imm => wordOf 0x0 0 imm
  | .subi imm => wordOf 0x0 1 imm
  | .andi imm => wordOf 0x0 2 imm
  | .ori imm => wordOf 0x0 3 imm
  | .xori imm => wordOf 0x0 4 imm
  | .add idx => wordOf 0x1 0 (regArg idx)
  | .sub idx => wordOf 0x1 1 (regArg idx)
  | .and idx => wordOf 0x1 2 (regArg idx)
  | .or idx => wordOf 0x1 3 (regArg idx)
  | .xor idx => wordOf 0x1 4 (regArg idx)
  | .set imm => wordOf 0x2 0 imm
  | .get idx => wordOf 0x3 0 (regArg idx)
  | .put idx => wordOf 0x4 0 (regArg idx)
  | .load => wordOf 0x5 0 0
  | .store => wordOf 0x6 0 0
  | .bcc target => wordOf 0x7 0 target
  | .bcs target => wordOf 0x7 1 target
  | .bvc target => wordOf 0x7 2 target
  | .bvs target => wordOf 0x7 3 target
  | .jmpi offset => wordOf 0x8 0 offset
  | .jmpr => wordOf 0x9 0 0
  | .jmpa => wordOf 0xA 0 0
  | .halt => wordOf 0xF 0 0

/-- The `match` word of an instruction's row of 30_encoding.md Table R96. -/
def rowMatch : Instr → InstrWord
  | .addi _ => 0x0000
  | .subi _ => 0x0100
  | .andi _ => 0x0200
  | .ori _ => 0x0300
  | .xori _ => 0x0400
  | .add _ => 0x1000
  | .sub _ => 0x1100
  | .and _ => 0x1200
  | .or _ => 0x1300
  | .xor _ => 0x1400
  | .set _ => 0x2000
  | .get _ => 0x3000
  | .put _ => 0x4000
  | .load => 0x5000
  | .store => 0x6000
  | .bcc _ => 0x7000
  | .bcs _ => 0x7100
  | .bvc _ => 0x7200
  | .bvs _ => 0x7300
  | .jmpi _ => 0x8000
  | .jmpr => 0x9000
  | .jmpa => 0xA000
  | .halt => 0xF000

/-- The `mask` word of an instruction's row of 30_encoding.md Table R96. -/
def rowMask : Instr → InstrWord
  | .addi _ => 0xFF00
  | .subi _ => 0xFF00
  | .andi _ => 0xFF00
  | .ori _ => 0xFF00
  | .xori _ => 0xFF00
  | .add _ => 0xFFF0
  | .sub _ => 0xFFF0
  | .and _ => 0xFFF0
  | .or _ => 0xFFF0
  | .xor _ => 0xFFF0
  | .set _ => 0xFF00
  | .get _ => 0xFFF0
  | .put _ => 0xFFF0
  | .load => 0xFFFF
  | .store => 0xFFFF
  | .bcc _ => 0xFF00
  | .bcs _ => 0xFF00
  | .bvc _ => 0xFF00
  | .bvs _ => 0xFF00
  | .jmpi _ => 0xFF00
  | .jmpr => 0xFFFF
  | .jmpa => 0xFFFF
  | .halt => 0xFFFF

/-- An instruction word given as a number of `nbits` bits, bit 0 the least significant; the bits above are zero. Every
instruction is one 16-bit word (30_encoding.md R93), so a number of more bits is no instruction word. -/
def tableWord (nbits w : Nat) : InstrWord := BitVec.ofNat 16 (w % 2 ^ nbits)

/-- The instruction this decoder reads from the word whose bits are `w`, numbered as spec/opcode_table.json numbers them. -/
def decodeTableWord (nbits w : Nat) : Option Instr :=
  if nbits ≤ 16 then (decode (tableWord nbits w)).instr? else none

end Sys2Proof
end

