-- ==== Sys2Proof/Config.lean ====
section
/-!
DEFINITION. The implementation parameters of 00_scope.md Table R7. The widths are `Widths` (Word.lean). The other rows that are
plain data are the fields of `Params`, which every state carries and no step writes (assumption log 13), so that a statement
about every state is a statement about every value of them; their reference values are `Params.reference`. The rows that are
functions (DECODE, ALU, COND) are the fields of `Collaborators` in Machine/Sequencer.lean. What the spec gives no value for at
all is an opaque constant here.
-/

namespace Sys2Proof

/-- The status register: two flags (10_state.md R23). -/
structure Status where
  /-- signed overflow -/
  v : Bool
  /-- carry (after a subtraction of the reference ALU: borrow) -/
  c : Bool
  deriving DecidableEq, Repr, Inhabited

/-- What the ALU returns: (result, signed overflow, carry) (42_alu.md R147). -/
structure AluResult (n : Nat := 8) where
  result : BitVec n
  v : Bool
  c : Bool
  deriving DecidableEq, Repr, Inhabited

/-- A wait function as a finite table, address to number of not-ready answers; an address it does not list has none.
Every number is finite, which is the no-permanent-stall contract (20_memory.md R69, R70; 93 U6). -/
abbrev WaitTable := List (Nat × Nat)

/-- The layout of the status register as a bus value: its width and the places of its two flags (00_scope.md R7 row STATUS
layout, 10_state.md R23, D3). -/
structure StatusLayout where
  width : Nat
  carryBit : Nat
  overflowBit : Nat
  deriving DecidableEq, Repr

/-- Bit 0 = `C`, bit 1 = `V`, width 2 (10_state.md R23, D3). DESIGN CHOICE (assumption log 3). -/
def StatusLayout.reference : StatusLayout := { width := 2, carryBit := 0, overflowBit := 1 }

/-- The plain-data rows of Table R7 other than the widths (00_scope.md R7). -/
structure Params (W : Widths := Widths.reference) where
  /-- `NREG`: registers `0 .. nreg-1` exist (10_state.md R22, D2); a larger index is a fault (D23). -/
  nreg : Nat
  /-- `STATUS` layout (10_state.md R23, D3). -/
  statusLayout : StatusLayout
  /-- `DMAR_IDX`: the general register `dmar` is a view of (10_state.md R24, D4). -/
  dmarIdx : W.Idx
  /-- `IMAR_IDX`: the general register `imar` is a view of (10_state.md R25, D4). -/
  imarIdx : W.Idx
  /-- `IMEM_WAIT` (20_memory.md R70, D14). -/
  imemWait : WaitTable
  /-- `DMEM_LOAD_WAIT` (20_memory.md R71, D14). -/
  dmemLoadWait : WaitTable
  /-- `DMEM_STORE_WAIT` (20_memory.md R72, D14). -/
  dmemStoreWait : WaitTable
  /-- `RESET_PC` (10_state.md R42, D10). -/
  resetPc : W.Addr
  /-- `RESET_ACC` (10_state.md R42, D10). -/
  resetAcc : W.Data
  /-- `RESET_X` (10_state.md R42, D10). -/
  resetX : Regs W.Data W.idx
  /-- `RESET_ST` (10_state.md R42, D10). -/
  resetSt : Status
  /-- `IMEM_INIT` (10_state.md R42, D11). -/
  imemInit : Memory W.instr
  /-- `DMEM_INIT` (10_state.md R42, D11). -/
  dmemInit : Memory W.data
  /-- `LOAD_BASE` (20_memory.md R81, D12). -/
  loadBase : W.Addr
  /-- `CYCLE_WIDTH`: `none` is unbounded (10_state.md R31, D19); a finite counter refuses to overflow (93 U20). -/
  cycleWidth : Option Nat
  deriving DecidableEq, Repr

/-- The column "reference" of Table R7. DESIGN CHOICE (assumption log 2, 3, 8, 9, 13, 17): the source states none of these
values. -/
def Params.reference : Params where
  nreg := 16
  statusLayout := StatusLayout.reference
  dmarIdx := 14
  imarIdx := 15
  imemWait := []
  dmemLoadWait := []
  dmemStoreWait := []
  resetPc := 0
  resetAcc := 0
  resetX := Vector.replicate 16 0
  resetSt := { v := false, c := false }
  imemInit := []
  dmemInit := []
  loadBase := 0
  cycleWidth := none

/-- The two flags have places of their own in the bus value. -/
def StatusLayout.wf (l : StatusLayout) : Bool :=
  decide (l.carryBit < l.width) && decide (l.overflowBit < l.width) && decide (l.carryBit ≠ l.overflowBit)

/-- The two address registers are views of registers that exist, no more registers exist than an index can name, the status
layout has a place for each flag, and a finite counter can count at least one cycle. -/
def Params.wf {W : Widths} (p : Params W) : Bool :=
  decide (p.nreg ≤ 2 ^ W.idx) && decide (p.dmarIdx.toNat < p.nreg) && decide (p.imarIdx.toNat < p.nreg) &&
    p.statusLayout.wf && decide (p.cycleWidth ≠ some 0)

/-- What the ALU does for a function code 5..15. Free: the spec gives no value and no decoded word carries such a code
(42_alu.md R148, 30_encoding.md R97, 93 U19; assumption log 26). -/
opaque Config.unassignedAlu {n : Nat} : BitVec n → BitVec n → FuncCode → AluResult n

/-- Whether a branch with condition code 4..15 is taken. Free: the spec gives no value and no decoded word carries such a
code (30_encoding.md R98, 93 U19; assumption log 26). -/
opaque Config.unassignedCond : CondCode → Status → Bool

end Sys2Proof
end

