-- ==== Sys2Proof/Machine/State.lean ====
section
/-!
DEFINITION. The machine's state: every cell of 10_state.md Table R20, plain data, and its reset value (Table R42), for any
widths (00_scope.md R7). `State` without an argument is the reference instance's; `State W` is that of a machine of widths `W`.
One field is the model's own, `params` (assumption log 13). Names follow the spec: `next…` is the staged slot of a cell (00_scope.md
R10), `none` when nothing is staged (10_state.md R26, D17).
-/

namespace Sys2Proof.Machine

/-- A decoded record whose sub-category is no recognised variant of its category, with the offending code
(60_exceptions.md R230, R231; 43 R173, 44 R182, 45 R199). -/
inductive UnknownSub where
  /-- a register-file op that is none of set, get, put (43_regfile_ops.md R173) -/
  | registerFile (code : Nat)
  /-- a memory op that is neither load nor store (44_memory_ops.md R182) -/
  | memory (code : Nat)
  /-- a jump of none of the three sub-kinds (45_control_transfer.md R199) -/
  | jump (code : Nat)
  deriving DecidableEq, Repr

/-- The sub-kinds of `InternalConsistencyFault`, each with what it records (60_exceptions.md Table R230). They are values of
the state's `fault` cell: raising one is a next state, see `State.raise`. -/
inductive FaultKind (W : Widths := Widths.reference) where
  /-- the decoded record's sub-category matches no recognised variant (60_exceptions.md R231) -/
  | unknownSubOp (record : UnknownSub)
  /-- `DECODE` returned `Reserved` for the word `w` fetched at `pc` (60_exceptions.md R232, D6) -/
  | reservedEncoding (w : W.Word) (pc : W.Addr)
  /-- a register index `>= NREG` met in Execute (60_exceptions.md R231, 10_state.md R22, D23) -/
  | badRegisterIndex (idx : W.Idx)
  deriving DecidableEq, Repr

/-- Why no further step exists. -/
inductive Fault where
  /-- Raised by `step` on a state with `halted` set: "once `halted` is true the Controller performs no further stage
  execution or commits" (10_state.md R32, 46_run_loop.md R221). Safe: the machine has stopped (assumption log 20). -/
  | machineHalted
  /-- Raised by `step` on a state whose `fault` cell holds `k`: no cycle runs after a fatal fault, a later run "fails again
  with the same fault" (46_run_loop.md R221, 60_exceptions.md R231). Safe (assumption log 19). -/
  | internalConsistency (k : FaultKind)
  deriving DecidableEq, Repr

/-- Why a step is refused. -/
inductive Refusal where
  /-- Raised by `exec`'s arm of an instruction that has no meaning yet. Safe. No arm answers it: every instruction of the
  table has its meaning. -/
  | notModelled (mnemonic : String)
  /-- Raised by `step` on a machine whose counter has a finite `CYCLE_WIDTH` and no room for one more cycle: "A model with a
  fixed-width counter must `refuse` at the maximum rather than wrap" (93 U20, D19). Safe. Never in the reference instance,
  whose counter is unbounded (assumption log 17). -/
  | cycleCountFull
  deriving DecidableEq, Repr

/-- The instruction memory's outstanding fetch request, `im.req` (10_state.md R36). -/
structure FetchRequest (W : Widths := Widths.reference) where
  addr : W.Addr
  /-- not-ready answers still to give -/
  waits : Nat
  deriving DecidableEq, Repr

/-- The data memory's outstanding request, `dm.req`; a value is held by a store only (10_state.md R38). -/
inductive DataRequest (W : Widths := Widths.reference) where
  | load (addr : W.Addr) (waits : Nat)
  | store (addr : W.Addr) (value : W.Data) (waits : Nat)
  deriving DecidableEq, Repr

/-- The state (10_state.md Table R20). -/
structure State (W : Widths := Widths.reference) where
  /-- `cycle_count`; its width is `params.cycleWidth` (R31, D19) -/
  cycleCount : Nat
  /-- `halted`, sticky (R32) -/
  halted : Bool
  /-- `stalled`, recomputed every cycle (R33) -/
  stalled : Bool
  /-- `fault`, sticky (R39) -/
  fault : Option (FaultKind W)
  /-- the accumulator (R21) -/
  acc : W.Data
  /-- the indexed general registers (R22) -/
  x : Regs W.Data W.idx
  /-- the status register (R23) -/
  st : Status
  /-- `next.acc` (R26) -/
  nextAcc : Option W.Data
  /-- `next.x[i]`, one slot a register (R26) -/
  nextX : Regs (Option W.Data) W.idx
  /-- `next.st` (R26) -/
  nextSt : Option Status
  /-- the program counter (R28) -/
  pc : W.Addr
  /-- `next.pc` (R29) -/
  nextPc : Option W.Addr
  /-- `pc.stall_latch` (R30) -/
  stallLatch : Bool
  /-- instruction memory (R35) -/
  imem : Memory W.instr
  /-- `im.req` (R36) -/
  imReq : Option (FetchRequest W)
  /-- data memory (R37) -/
  dmem : Memory W.data
  /-- `dm.staged_store`: (address, value) of a completed STORE (R37) -/
  stagedStore : Option (W.Addr × W.Data)
  /-- `dm.req` (R38) -/
  dmReq : Option (DataRequest W)
  /-- the model's own field: the implementation parameters (00_scope.md R7; assumption log 13) -/
  params : Params W
  deriving DecidableEq, Repr

/-- The array with `v` in every place. -/
def Regs.fill {α : Type} {n : Nat} (v : α) : Regs α n := Vector.replicate (Nat.pow 2 n) v

/-- A fresh machine with the given parameters: every cell at its value of 10_state.md Table R42. -/
def State.fresh {W : Widths} (p : Params W) : State W where
  cycleCount := 0
  halted := false
  stalled := false
  fault := none
  acc := p.resetAcc
  x := p.resetX
  st := p.resetSt
  nextAcc := none
  nextX := Regs.fill none
  nextSt := none
  pc := p.resetPc
  nextPc := none
  stallLatch := false
  imem := p.imemInit
  imReq := none
  dmem := p.dmemInit
  stagedStore := none
  dmReq := none
  params := p

/-- The reference instance right after reset (10_state.md R42, reference column; assumption log 8, 9). Both memories list
nothing: every word reads as 0. -/
def State.reset : State := State.fresh Params.reference

end Sys2Proof.Machine
end

