-- ==== Sys2Proof/Machine/Flags.lean ====
section
/-!
DEFINITION. The reference ALU for any `N = DATA_WIDTH` (42_alu.md R148, decision D7; assumption log 6): each function converts its operands to
integers, computes exactly and narrows at the end, so that carry and overflow are comparisons with the exact result. The
first operand is always the accumulator. No flag is an input (R147).
-/

namespace Sys2Proof.Machine

/-- An exact signed value outside what `n = DATA_WIDTH` bits hold: below `-2^(N-1)` or above `2^(N-1) - 1` (42_alu.md R148). -/
def signedOverflow (n : Nat) (t : Int) : Bool := decide (t < -(2 ^ (n - 1))) || decide (2 ^ (n - 1) - 1 < t)

/-- ADD: `C` is the carry out of the top bit, `V` signed overflow (42_alu.md R148). -/
def aluAdd {n : Nat} (a b : BitVec n) : AluResult n where
  result := BitVec.ofNat n (a.toNat + b.toNat)
  v := signedOverflow n (a.toInt + b.toInt)
  c := decide (2 ^ n ≤ a.toNat + b.toNat)

/-- SUB, `a - b`: `C` is 1 when a borrow occurred, `V` signed overflow (42_alu.md R148). -/
def aluSub {n : Nat} (a b : BitVec n) : AluResult n where
  result := BitVec.ofInt n ((a.toNat : Int) - (b.toNat : Int))
  v := signedOverflow n (a.toInt - b.toInt)
  c := decide (a.toNat < b.toNat)

/-- AND: both flags clear (42_alu.md R148). -/
def aluAnd {n : Nat} (a b : BitVec n) : AluResult n where
  result := a &&& b
  v := false
  c := false

/-- OR: both flags clear (42_alu.md R148). -/
def aluOr {n : Nat} (a b : BitVec n) : AluResult n where
  result := a ||| b
  v := false
  c := false

/-- XOR: both flags clear (42_alu.md R148). -/
def aluXor {n : Nat} (a b : BitVec n) : AluResult n where
  result := a ^^^ b
  v := false
  c := false

/-- The reference `ALU(a, b, f)` over function codes: 0 ADD, 1 SUB, 2 AND, 3 OR, 4 XOR (30_encoding.md R97, 42_alu.md R148).
Codes 5..15 are reached by no decoded word; their value is free (assumption log 26). -/
def referenceAlu {n : Nat} (a b : BitVec n) (f : FuncCode) : AluResult n :=
  match f.toNat with
  | 0 => aluAdd a b
  | 1 => aluSub a b
  | 2 => aluAnd a b
  | 3 => aluOr a b
  | 4 => aluXor a b
  | _ => Config.unassignedAlu a b f

/-- The flags an ALU result stages: `st.V <- signed_overflow`, `st.C <- carry` (42_alu.md R147). -/
def AluResult.flags {n : Nat} (r : AluResult n) : Status := { v := r.v, c := r.c }

/-- `st` as a bus value: each flag at its place in the layout, every other bit clear (10_state.md R23, D3; assumption
log 3). -/
def Status.toBus (l : StatusLayout) (st : Status) : BitVec l.width :=
  (if st.c then BitVec.twoPow l.width l.carryBit else 0) ||| (if st.v then BitVec.twoPow l.width l.overflowBit else 0)

/-- The status register whose bus value is `b` (10_state.md R23, D3). -/
def Status.ofBus (l : StatusLayout) (b : BitVec l.width) : Status :=
  { v := b.getLsbD l.overflowBit, c := b.getLsbD l.carryBit }

/-- CC: taken iff `st.C = 0` (30_encoding.md R98, 45_control_transfer.md R191). -/
def condCarryClear (st : Status) : Bool := !st.c

/-- CS: taken iff `st.C = 1` (30_encoding.md R98, 45_control_transfer.md R191). -/
def condCarrySet (st : Status) : Bool := st.c

/-- VC: taken iff `st.V = 0` (30_encoding.md R98, D8; assumption log 7). -/
def condOverflowClear (st : Status) : Bool := !st.v

/-- VS: taken iff `st.V = 1` (30_encoding.md R98, D8; assumption log 7). -/
def condOverflowSet (st : Status) : Bool := st.v

/-- The reference `COND` over condition codes (45_control_transfer.md R191). Codes 4..15 are reached by no decoded word;
their value is free (assumption log 26). -/
def referenceCond (code : CondCode) (st : Status) : Bool :=
  match code.toNat with
  | 0 => condCarryClear st
  | 1 => condCarrySet st
  | 2 => condOverflowClear st
  | 3 => condOverflowSet st
  | _ => Config.unassignedCond code st

end Sys2Proof.Machine
end

