-- ==== Sys2Proof/Machine/Memory.lean ====
section
/-!
DEFINITION. Reading and writing one word of a memory held as a sorted list of the words that differ from zero
(20_memory.md R60, R61). Every address of the range exists (decision D13; assumption log 11), so no access fails. An
unlisted address reads as 0, the reference IMEM_INIT and DMEM_INIT (10_state.md R42, D11; assumption log 9).
-/

namespace Sys2Proof.Machine

/-- What an address that is not listed reads as: 0 (10_state.md R42, D11). DESIGN CHOICE (assumption log 9). -/
def Memory.unlisted (w : Nat) : BitVec w := 0

/-- The word at address key `a`. -/
def Memory.readKey {w : Nat} : Memory w → Nat → BitVec w
  | [], _ => Memory.unlisted w
  | (b, v) :: rest, a => if b = a then v else Memory.readKey rest a

/-- The memory with nothing listed at key `a`. -/
def Memory.eraseKey {w : Nat} : Memory w → Nat → Memory w
  | [], _ => []
  | (b, v) :: rest, a => if b = a then rest else (b, v) :: Memory.eraseKey rest a

/-- The memory with `v` listed at key `a`, in address order. -/
def Memory.insertKey {w : Nat} : Memory w → Nat → BitVec w → Memory w
  | [], a, v => [(a, v)]
  | (b, u) :: rest, a, v =>
    if a < b then (a, v) :: (b, u) :: rest
    else if a = b then (a, v) :: rest
    else (b, u) :: Memory.insertKey rest a v

/-- `IFetch(a)` and `MemRead(a, DATA_WIDTH)`: the committed word at `a` (00_scope.md R11). -/
def Memory.read {w n : Nat} (m : Memory w) (a : BitVec n) : BitVec w := Memory.readKey m a.toNat

/-- The memory with `v` at `a` and every other word as before. Writing what an unlisted address reads as removes the entry,
so that equal memories are equal lists. -/
def Memory.write {w n : Nat} (m : Memory w) (a : BitVec n) (v : BitVec w) : Memory w :=
  if v = Memory.unlisted w then Memory.eraseKey m a.toNat else Memory.insertKey m a.toNat v

/-- Every key lies above `lo` and keys rise strictly, no entry is what an unlisted address reads as, and every key is an
address of `n` bits (20_memory.md R61). -/
def Memory.wfFrom {w : Nat} (n : Nat) : Nat → Memory w → Bool
  | _, [] => true
  | lo, (b, v) :: rest =>
    decide (lo ≤ b) && decide (b < 2 ^ n) && decide (v ≠ Memory.unlisted w) && Memory.wfFrom n (b + 1) rest

/-- The canonical form of a memory with addresses of `n` bits. -/
def Memory.wf {w : Nat} (m : Memory w) (n : Nat := 8) : Bool := Memory.wfFrom n 0 m

/-- The number of not-ready answers a wait table gives for address `a`; 0 where it lists none (20_memory.md R70). -/
def WaitTable.waits {n : Nat} : WaitTable → BitVec n → Nat
  | [], _ => 0
  | (b, k) :: rest, a => if b = a.toNat then k else WaitTable.waits rest a

end Sys2Proof.Machine
end

