-- ==== Sys2Proof/Machine/Operands.lean ====
section
/-!
DEFINITION. The operand forms: a general register by index, the two address registers, operand B of an ALU op. All reads are
of committed values (00_scope.md R10, 40_pipeline_cycle.md R125).
-/

namespace Sys2Proof.Machine

/-- The place `idx` of a register-file array. -/
def Regs.read {α : Type} {n : Nat} (r : Regs α n) (idx : BitVec n) : α := r[idx.toNat]'(idx.isLt)

/-- The array with `v` at `idx` and every other place as before. -/
def Regs.write {α : Type} {n : Nat} (r : Regs α n) (idx : BitVec n) (v : α) : Regs α n := r.set idx.toNat v idx.isLt

variable {W : Widths}

/-- `register(idx)`: the committed general register, `none` where `idx >= NREG` (10_state.md R22). -/
def State.register (s : State W) (idx : W.Idx) : Option W.Data :=
  if idx.toNat < s.params.nreg then some (Regs.read s.x idx) else none

/-- `data_address_register()`: the low `ADDR_WIDTH` bits of `x[DMAR_IDX]`, zero-extended (10_state.md R24, D4; log 4). -/
def State.dmar (s : State W) : W.Addr := (Regs.read s.x s.params.dmarIdx).setWidth W.addr

/-- `instr_address_register()`: the low `ADDR_WIDTH` bits of `x[IMAR_IDX]`, zero-extended (10_state.md R25, D4; log 4). -/
def State.imar (s : State W) : W.Addr := (Regs.read s.x s.params.imarIdx).setWidth W.addr

/-- The two operand-B forms of an ALU op (30_encoding.md R90). -/
inductive OperandB (W : Widths := Widths.reference) where
  | immediate (imm : W.Data)
  | register (idx : W.Idx)
  deriving DecidableEq, Repr

/-- Operand B: the immediate value, or the committed register (42_alu.md R145, R146); `none` for an index `>= NREG`. -/
def State.operandB (s : State W) : OperandB W → Option W.Data
  | .immediate imm => some imm
  | .register idx => s.register idx

end Sys2Proof.Machine
end

