-- ==== Sys2Proof/Machine/Ops.lean ====
section
/-!
DEFINITION. The shared operations every instruction is made of: the register file's, program counter's and memories' staging
operations and commits, the request/ready ports, the Fetch stage, and the four ways a cycle ends (40_pipeline_cycle.md R121).
Raising a fault is one operation, `State.raise`; there is no return from it but `reset()` (60_exceptions.md R238, R239).
-/

namespace Sys2Proof.Machine

variable {W : Widths}

/-! ### Register file: staging and commit (10_state.md R21 to R27) -/

/-- `set_next_acc(v)`: `next.acc <- v` (10_state.md R21). -/
def State.setNextAcc (s : State W) (v : W.Data) : State W := { s with nextAcc := some v }

/-- `set_next_register(idx, v)`: `next.x[idx] <- v` (10_state.md R22). -/
def State.setNextRegister (s : State W) (idx : W.Idx) (v : W.Data) : State W :=
  { s with nextX := Regs.write s.nextX idx (some v) }

/-- `set_next_status(overflow, carry)`: `next.st <- (V, C)` (10_state.md R23). -/
def State.setNextStatus (s : State W) (overflow carry : Bool) : State W :=
  { s with nextSt := some { v := overflow, c := carry } }

/-- The general registers after a commit: a staged slot's value where there is one (10_state.md R27). -/
def commitRegs {α : Type} {n : Nat} (x : Regs α n) (next : Regs (Option α) n) : Regs α n :=
  Vector.ofFn fun i => (next[i]).getD x[i]

/-- The register file's `commit()` (10_state.md R27). -/
def State.commitRegisterFile (s : State W) : State W :=
  { s with
    acc := s.nextAcc.getD s.acc
    st := s.nextSt.getD s.st
    x := commitRegs s.x s.nextX
    nextAcc := none
    nextSt := none
    nextX := Regs.fill none }

/-! ### Program counter (10_state.md R28 to R30) -/

/-- `set_stall(b)` (10_state.md R30). -/
def State.setStall (s : State W) (b : Bool) : State W := { s with stallLatch := b }

/-- `increment()`: `next.pc <- pc + 1`, wrapping (10_state.md R29, 45_control_transfer.md R190). -/
def State.increment (s : State W) : State W := { s with nextPc := some (s.pc + 1) }

/-- `conditionally_branch(status, target, condition)`, the condition already evaluated on the committed status
(10_state.md R29, 45_control_transfer.md R191). -/
def State.conditionallyBranch (s : State W) (taken : Bool) (target : W.Addr) : State W :=
  { s with nextPc := some (if taken then target else s.pc + 1) }

/-- `jump_relative(offset)`: `next.pc <- pc + offset`, wrapping; the base is the jump's own address (10_state.md R29, D28). -/
def State.jumpRelative (s : State W) (offset : W.Addr) : State W := { s with nextPc := some (s.pc + offset) }

/-- `jump_absolute(addr)`: `next.pc <- addr` (10_state.md R29). -/
def State.jumpAbsolute (s : State W) (target : W.Addr) : State W := { s with nextPc := some target }

/-- The program counter's `commit()` (10_state.md R29). -/
def State.commitProgramCounter (s : State W) : State W := { s with pc := s.nextPc.getD s.pc, nextPc := none }

/-! ### Instruction-memory port (20_memory.md R70, R74) -/

/-- `request_fetch(a)`: an outstanding request for the same address is left as it is, otherwise a new one is made with the
waits of its address (20_memory.md R70). -/
def State.requestFetch (s : State W) (a : W.Addr) : State W :=
  match s.imReq with
  | some r => if r.addr = a then s else { s with imReq := some ⟨a, WaitTable.waits s.params.imemWait a⟩ }
  | none => { s with imReq := some ⟨a, WaitTable.waits s.params.imemWait a⟩ }

/-- `fetch_ready()` and, when ready, `fetch_result()`: the word, or one wait less (20_memory.md R70). With no request
outstanding there is no answer (assumption log 28). -/
def State.pollFetch (s : State W) : Option W.Word × State W :=
  match s.imReq with
  | some ⟨a, 0⟩ => (some (Memory.read s.imem a), s)
  | some ⟨a, n + 1⟩ => (none, { s with imReq := some ⟨a, n⟩ })
  | none => (none, s)

/-- The instruction memory's `commit()` retires the fetch request and changes no word (20_memory.md R74). -/
def State.commitInstrMemory (s : State W) : State W := { s with imReq := none }

/-! ### Data-memory ports (20_memory.md R71 to R73) -/

/-- `request_load(a)` (20_memory.md R71). -/
def State.requestLoad (s : State W) (a : W.Addr) : State W :=
  match s.dmReq with
  | some (.load b _) => if b = a then s else { s with dmReq := some (.load a (WaitTable.waits s.params.dmemLoadWait a)) }
  | some (.store _ _ _) => { s with dmReq := some (.load a (WaitTable.waits s.params.dmemLoadWait a)) }
  | none => { s with dmReq := some (.load a (WaitTable.waits s.params.dmemLoadWait a)) }

/-- `load_ready()` and, when ready, `load_result()`: the committed word, or one wait less (20_memory.md R71). With no load
outstanding there is no answer (assumption log 28). -/
def State.pollLoad (s : State W) : Option W.Data × State W :=
  match s.dmReq with
  | some (.load a 0) => (some (Memory.read s.dmem a), s)
  | some (.load a (n + 1)) => (none, { s with dmReq := some (.load a n) })
  | some (.store _ _ _) => (none, s)
  | none => (none, s)

/-- `request_store(a, v)`: the same address and value do not restart it (20_memory.md R72). -/
def State.requestStore (s : State W) (a : W.Addr) (v : W.Data) : State W :=
  match s.dmReq with
  | some (.store b u _) =>
    if b = a ∧ u = v then s else { s with dmReq := some (.store a v (WaitTable.waits s.params.dmemStoreWait a)) }
  | some (.load _ _) => { s with dmReq := some (.store a v (WaitTable.waits s.params.dmemStoreWait a)) }
  | none => { s with dmReq := some (.store a v (WaitTable.waits s.params.dmemStoreWait a)) }

/-- `store_complete()`: on completion the write is staged, otherwise one wait less (20_memory.md R72, D15). With no store
outstanding it is not complete (assumption log 28). -/
def State.pollStore (s : State W) : Bool × State W :=
  match s.dmReq with
  | some (.store a v 0) => (true, { s with stagedStore := some (a, v) })
  | some (.store a v (n + 1)) => (false, { s with dmReq := some (.store a v n) })
  | some (.load _ _) => (false, s)
  | none => (false, s)

/-- The data memory with a staged store applied, if there is one (20_memory.md R73). -/
def commitStore {w n : Nat} (m : Memory w) (staged : Option (BitVec n × BitVec w)) : Memory w :=
  match staged with
  | some (a, v) => Memory.write m a v
  | none => m

/-- The data memory's `commit()`: apply the staged store, empty it, retire the request (20_memory.md R73). -/
def State.commitDataMemory (s : State W) : State W :=
  { s with
    dmem := commitStore s.dmem s.stagedStore
    stagedStore := none
    dmReq := none }

/-! ### The Controller's bookkeeping and the ends of a cycle (40_pipeline_cycle.md R121, 46_run_loop.md R210 to R213) -/

/-- The first act of a cycle: `stalled <- false` (40_pipeline_cycle.md R120, 10_state.md R33). -/
def State.beginCycle (s : State W) : State W := { s with stalled := false }

/-- `cycle_count <- cycle_count + 1` (46_run_loop.md R211). -/
def State.countCycle (s : State W) : State W := { s with cycleCount := s.cycleCount + 1 }

/-- The `stall` primitive: latch and flag set (00_scope.md R11, 40_pipeline_cycle.md R123, R126). -/
def State.stall (s : State W) : State W := { s.setStall true with stalled := true }

/-- The `halt` primitive: `halted <- true` (00_scope.md R11, 40_pipeline_cycle.md R124). -/
def State.halt (s : State W) : State W := { s with halted := true }

/-- Raising a fatal fault, the machine's one exception: the `fault` cell is set and nothing else changes. No register is
saved, no handler is entered (60_exceptions.md R231, R238; 46_run_loop.md R222; D21; assumption log 19). -/
def State.raise (s : State W) (k : FaultKind W) : State W := { s with fault := some k }

/-- The commit phase: register file, instruction memory, data memory, program counter (40_pipeline_cycle.md R128). -/
def State.commitPhase (s : State W) : State W :=
  s.commitRegisterFile.commitInstrMemory.commitDataMemory.commitProgramCounter

/-- A cycle that completed: counted, then committed (40_pipeline_cycle.md R129, 46_run_loop.md R210, R213). -/
def endCompleted (s : State) : Host.Outcome State Fault Refusal := .next s.countCycle.commitPhase

/-- A cycle that stalled: latch and flag set, counted, not committed (46_run_loop.md R211, R213; 90_conflicts.md C1). -/
def endStalled (s : State) : Host.Outcome State Fault Refusal := .next s.stall.countCycle

/-- A cycle that halted: counted, not committed (46_run_loop.md R212, 90_conflicts.md C6). -/
def endHalted (s : State) : Host.Outcome State Fault Refusal := .next s.halt.countCycle

/-- A cycle that ended in a fatal fault: neither counted nor committed (46_run_loop.md R222). -/
def endFaulted (s : State) (k : FaultKind) : Host.Outcome State Fault Refusal := .next (s.raise k)

/-! ### The stages -/

/-- Whether the counter can count `n` more cycles: always when it is unbounded, and below `2^CYCLE_WIDTH` when it is finite
(10_state.md R31, D19, 93 U20; assumption log 17). -/
def State.roomFor (s : State W) (n : Nat) : Bool :=
  match s.params.cycleWidth with
  | none => true
  | some w => decide (s.cycleCount + n < 2 ^ w)

/-- Why no cycle may begin: the machine is halted or faulted (40_pipeline_cycle.md R120, 46_run_loop.md R221). -/
def State.stopped (s : State) : Option Fault :=
  match s.fault with
  | some k => some (.internalConsistency k)
  | none => if s.halted then some .machineHalted else none

/-- `stalled <- false`, then the Fetch stage: request, poll once, and either the word with the latch cleared or a stall
(40_pipeline_cycle.md R120, R123). It reads only `pc`. -/
def State.fetchStage (s : State W) : Option W.Word × State W :=
  match (s.beginCycle.requestFetch s.pc).pollFetch with
  | (some w, s') => (some w, s'.setStall false)
  | (none, s') => (none, s')

/-- The Decode stage's answer to a reserved word (40_pipeline_cycle.md R124, 60_exceptions.md R232). -/
def endReserved (w : InstrWord) (s : State) : Host.Outcome State Fault Refusal := endFaulted s (.reservedEncoding w s.pc)

/-- Staging an ALU result: the accumulator and both flags (42_alu.md R145, R146). -/
def State.stageAlu (s : State W) (r : AluResult W.data) : State W := (s.setNextAcc r.result).setNextStatus r.v r.c

/-- An ALU op from Execute on: operand B, the ALU, staging, increment; a register index `>= NREG` faults in Execute
(42_alu.md R145, R146; 10_state.md R22). -/
def aluOp (f : Data → Data → AluResult) (b : OperandB) (s : State) : Host.Outcome State Fault Refusal :=
  match b with
  | .immediate imm => endCompleted (s.stageAlu (f s.acc imm)).increment
  | .register idx =>
    match s.register idx with
    | some v => endCompleted (s.stageAlu (f s.acc v)).increment
    | none => endFaulted s (.badRegisterIndex idx)

/-- A branch from Execute on: nothing but `conditionally_branch` on the committed status (45_control_transfer.md R191). -/
def branchOp (cond : Status → Bool) (target : Addr) (s : State) : Host.Outcome State Fault Refusal :=
  endCompleted (s.conditionallyBranch (cond s.st) target)

end Sys2Proof.Machine
end

