-- ==== Sys2Proof/Machine/Alu.lean ====
section
/-!
DEFINITION. The ten ALU instructions (42_alu.md R149 to R158), each `aluOp` (R145, R146) with its function of the reference
ALU (R148). A meaning covers the cycle from Decode to its end (assumption log 24).
-/

namespace Sys2Proof.Machine

/-- ADDI `#n` (42_alu.md R149). -/
def execAddi (imm : Data) (s : State) : Host.Outcome State Fault Refusal := aluOp aluAdd (.immediate imm) s

/-- SUBI `#n` (42_alu.md R150). -/
def execSubi (imm : Data) (s : State) : Host.Outcome State Fault Refusal := aluOp aluSub (.immediate imm) s

/-- ANDI `#n` (42_alu.md R151). -/
def execAndi (imm : Data) (s : State) : Host.Outcome State Fault Refusal := aluOp aluAnd (.immediate imm) s

/-- ORI `#n` (42_alu.md R152). -/
def execOri (imm : Data) (s : State) : Host.Outcome State Fault Refusal := aluOp aluOr (.immediate imm) s

/-- XORI `#n` (42_alu.md R153). -/
def execXori (imm : Data) (s : State) : Host.Outcome State Fault Refusal := aluOp aluXor (.immediate imm) s

/-- ADD `rN` (42_alu.md R154). -/
def execAdd (idx : RegIdx) (s : State) : Host.Outcome State Fault Refusal := aluOp aluAdd (.register idx) s

/-- SUB `rN` (42_alu.md R155). -/
def execSub (idx : RegIdx) (s : State) : Host.Outcome State Fault Refusal := aluOp aluSub (.register idx) s

/-- AND `rN` (42_alu.md R156). -/
def execAnd (idx : RegIdx) (s : State) : Host.Outcome State Fault Refusal := aluOp aluAnd (.register idx) s

/-- OR `rN` (42_alu.md R157). -/
def execOr (idx : RegIdx) (s : State) : Host.Outcome State Fault Refusal := aluOp aluOr (.register idx) s

/-- XOR `rN` (42_alu.md R158). -/
def execXor (idx : RegIdx) (s : State) : Host.Outcome State Fault Refusal := aluOp aluXor (.register idx) s

end Sys2Proof.Machine
end

