-- ==== Sys2Proof/Machine/Control.lean ====
section
/-!
DEFINITION. The branches, the jumps and HALT (45_control_transfer.md R192 to R198, 41_halt.md R140). None saves the pc (R200)
and none has a delay slot (R201).
-/

namespace Sys2Proof.Machine

/-- BCC `a`: branch if carry clear (45_control_transfer.md R192). -/
def execBcc (target : Addr) (s : State) : Host.Outcome State Fault Refusal := branchOp condCarryClear target s

/-- BCS `a`: branch if carry set (45_control_transfer.md R193). -/
def execBcs (target : Addr) (s : State) : Host.Outcome State Fault Refusal := branchOp condCarrySet target s

/-- BVC `a`: branch if overflow clear (45_control_transfer.md R194). -/
def execBvc (target : Addr) (s : State) : Host.Outcome State Fault Refusal := branchOp condOverflowClear target s

/-- BVS `a`: branch if overflow set (45_control_transfer.md R195). -/
def execBvs (target : Addr) (s : State) : Host.Outcome State Fault Refusal := branchOp condOverflowSet target s

/-- JMPI `k`: `next.pc <- pc + k` (45_control_transfer.md R196). -/
def execJmpi (offset : Addr) (s : State) : Host.Outcome State Fault Refusal := endCompleted (s.jumpRelative offset)

/-- JMPR: `next.pc <- pc + imar` (45_control_transfer.md R197). -/
def execJmpr (s : State) : Host.Outcome State Fault Refusal := endCompleted (s.jumpRelative s.imar)

/-- JMPA: `next.pc <- imar` (45_control_transfer.md R198). -/
def execJmpa (s : State) : Host.Outcome State Fault Refusal := endCompleted (s.jumpAbsolute s.imar)

/-- HALT, decided in the Decode stage: `halted <- true`, nothing staged, nothing committed (41_halt.md R140). -/
def execHalt (s : State) : Host.Outcome State Fault Refusal := endHalted s

end Sys2Proof.Machine
end

