-- ==== Sys2Proof/Machine/MemoryOps.lean ====
section
/-!
DEFINITION. LOAD and STORE (44_memory_ops.md R180, R181): Execute does nothing, Memory-access requests, polls once and may
stall; a stalled attempt stages nothing and is not committed.
-/

namespace Sys2Proof.Machine

/-- LOAD: `next.acc <- DMEM[dmar]` once the load port is ready (44_memory_ops.md R180). -/
def execLoad (s : State) : Host.Outcome State Fault Refusal :=
  match (s.requestLoad s.dmar).pollLoad with
  | (some v, s') => endCompleted (s'.setNextAcc v).increment
  | (none, s') => endStalled s'

/-- STORE: the port stages `DMEM[dmar] <- acc` once it completes (44_memory_ops.md R181). -/
def execStore (s : State) : Host.Outcome State Fault Refusal :=
  match (s.requestStore s.dmar s.acc).pollStore with
  | (true, s') => endCompleted s'.increment
  | (false, s') => endStalled s'

end Sys2Proof.Machine
end

