-- ==== Sys2Proof/Machine/RegFile.lean ====
section
/-!
DEFINITION. The register-file instructions SET, GET, PUT (43_regfile_ops.md R170 to R172). None touches the status register.
-/

namespace Sys2Proof.Machine

/-- SET `#n`: `next.acc <- n` (43_regfile_ops.md R170). -/
def execSet (imm : Data) (s : State) : Host.Outcome State Fault Refusal := endCompleted (s.setNextAcc imm).increment

/-- GET `rN`: `next.acc <- x[N]`; an index `>= NREG` is a fault (43_regfile_ops.md R171). -/
def execGet (idx : RegIdx) (s : State) : Host.Outcome State Fault Refusal :=
  match s.register idx with
  | some v => endCompleted (s.setNextAcc v).increment
  | none => endFaulted s (.badRegisterIndex idx)

/-- PUT `rN`: `next.x[N] <- acc`; an index `>= NREG` is a fault (43_regfile_ops.md R172). -/
def execPut (idx : RegIdx) (s : State) : Host.Outcome State Fault Refusal :=
  match s.register idx with
  | some _ => endCompleted (s.setNextRegister idx s.acc).increment
  | none => endFaulted s (.badRegisterIndex idx)

end Sys2Proof.Machine
end

