-- ==== Sys2Proof/Machine/Dispatch.lean ====
section
/-!
DEFINITION. One arm per instruction: what the cycle does from its Decode stage on (40_pipeline_cycle.md R124 to R129), for an
instruction whose fetch is ready.
-/

namespace Sys2Proof.Machine

def exec (i : Instr) (s : State) : Host.Outcome State Fault Refusal :=
  match i with
  | .addi imm => Sys2Proof.Machine.execAddi imm s
  | .subi imm => Sys2Proof.Machine.execSubi imm s
  | .andi imm => Sys2Proof.Machine.execAndi imm s
  | .ori imm => Sys2Proof.Machine.execOri imm s
  | .xori imm => Sys2Proof.Machine.execXori imm s
  | .add idx => Sys2Proof.Machine.execAdd idx s
  | .sub idx => Sys2Proof.Machine.execSub idx s
  | .and idx => Sys2Proof.Machine.execAnd idx s
  | .or idx => Sys2Proof.Machine.execOr idx s
  | .xor idx => Sys2Proof.Machine.execXor idx s
  | .set imm => Sys2Proof.Machine.execSet imm s
  | .get idx => Sys2Proof.Machine.execGet idx s
  | .put idx => Sys2Proof.Machine.execPut idx s
  | .load => Sys2Proof.Machine.execLoad s
  | .store => Sys2Proof.Machine.execStore s
  | .bcc target => Sys2Proof.Machine.execBcc target s
  | .bcs target => Sys2Proof.Machine.execBcs target s
  | .bvc target => Sys2Proof.Machine.execBvc target s
  | .bvs target => Sys2Proof.Machine.execBvs target s
  | .jmpi offset => Sys2Proof.Machine.execJmpi offset s
  | .jmpr => Sys2Proof.Machine.execJmpr s
  | .jmpa => Sys2Proof.Machine.execJmpa s
  | .halt => Sys2Proof.Machine.execHalt s

end Sys2Proof.Machine
end

