-- ==== Sys2Proof/Machine/Step.lean ====
section
/-!
DEFINITION. One step: one iteration of the run loop (46_run_loop.md R210), that is one cycle of 00_scope.md R12: the stage
sequencer, the counter and, when the cycle completed, the commit phase. A halted or faulted machine has no further step, and a
machine whose finite counter is full is refused one.
-/

namespace Sys2Proof.Machine

/-- One cycle (40_pipeline_cycle.md R131, 46_run_loop.md R210): Fetch, which may stall; Decode, which may meet a reserved
word; then the decoded instruction. -/
def step (s : State) : Host.Outcome State Fault Refusal :=
  match s.stopped with
  | some f => .fault f
  | none =>
    if s.roomFor 1 then
      match s.fetchStage with
      | (none, s') => endStalled s'
      | (some w, s') =>
        match decode w with
        | .instr i => exec i s'
        | .reserved _ => endReserved w s'
    else .refused .cycleCountFull

/-- `s` with the instruction word whose bits are `w` where the next cycle fetches, and its fetch ready, so that the very next
step of a machine that is neither halted nor faulted runs it (assumption log 25). -/
def State.withFetchWord (s : State) (nbits w : Nat) : State :=
  { s with imem := Memory.write s.imem s.pc (tableWord nbits w), imReq := some ⟨s.pc, 0⟩ }

end Sys2Proof.Machine
end

