-- ==== Sys2Proof/Machine/Sequencer.lean ====
section
/-!
DEFINITION. The stage sequencer and one iteration of the run loop in the spec's own order, stage by stage, for ANY widths,
decoder, ALU and branch condition (00_scope.md R13; 30_encoding.md R90 to R92; 40_pipeline_cycle.md R120 to R131; 46_run_loop.md R210).
`step` is organised by instruction; this is the same machine organised by stage, with the external collaborators as
parameters. With `Collaborators.reference` the two agree, which is an obligation.
-/

namespace Sys2Proof.Machine

variable {W : Widths}

/-- The decoded instruction as a closed variant type (30_encoding.md R90). -/
inductive Decoded (W : Widths := Widths.reference) where
  | aluImm (func : FuncCode) (imm : W.Data)
  | aluReg (func : FuncCode) (idx : W.Idx)
  | rfSet (imm : W.Data)
  | rfGet (idx : W.Idx)
  | rfPut (idx : W.Idx)
  | memLoad
  | memStore
  | branch (cond : CondCode) (target : W.Addr)
  | jumpImmRel (offset : W.Addr)
  | jumpRegRel
  | jumpRegAbs
  | halt
  deriving DecidableEq, Repr

/-- What a Decode Unit may answer: a record, a record that breaks its contract by an unrecognised sub-operation
(30_encoding.md R91; assumption log 29), or `Reserved` (R92). -/
inductive DecodeAnswer (W : Widths := Widths.reference) where
  | record (d : Decoded W)
  | unknown (u : UnknownSub)
  | reserved
  deriving DecidableEq, Repr

/-- The external collaborators, pure and stateless: `DECODE`, `ALU`, `COND` (00_scope.md R7, R13; 42_alu.md R147). -/
structure Collaborators (W : Widths := Widths.reference) where
  decode : W.Word → DecodeAnswer W
  alu : W.Data → W.Data → FuncCode → AluResult W.data
  cond : CondCode → Status → Bool

/-- The decoded record of an instruction: the column "decoded" of spec/opcode_table.json. -/
def decodedOf : Instr → Decoded
  | .addi imm => .aluImm 0 imm
  | .subi imm => .aluImm 1 imm
  | .andi imm => .aluImm 2 imm
  | .ori imm => .aluImm 3 imm
  | .xori imm => .aluImm 4 imm
  | .add idx => .aluReg 0 idx
  | .sub idx => .aluReg 1 idx
  | .and idx => .aluReg 2 idx
  | .or idx => .aluReg 3 idx
  | .xor idx => .aluReg 4 idx
  | .set imm => .rfSet imm
  | .get idx => .rfGet idx
  | .put idx => .rfPut idx
  | .load => .memLoad
  | .store => .memStore
  | .bcc target => .branch 0 target
  | .bcs target => .branch 1 target
  | .bvc target => .branch 2 target
  | .bvs target => .branch 3 target
  | .jmpi offset => .jumpImmRel offset
  | .jmpr => .jumpRegRel
  | .jmpa => .jumpRegAbs
  | .halt => .halt

/-- The reference decoder's answer (30_encoding.md R104); it never breaks its contract. -/
def referenceDecode (w : InstrWord) : DecodeAnswer :=
  match Sys2Proof.decode w with
  | .instr i => .record (decodedOf i)
  | .reserved _ => .reserved

/-- The reference collaborators (00_scope.md R7). -/
def Collaborators.reference : Collaborators where
  decode := referenceDecode
  alu := referenceAlu
  cond := referenceCond

/-- How a stage after Decode ends: it hands its state on, stalls, or raises a fault (40_pipeline_cycle.md R121). -/
inductive StageEnd (W : Widths := Widths.reference) where
  | proceed (s : State W)
  | stall (s : State W)
  | fault (k : FaultKind W)
  deriving DecidableEq, Repr

/-- The four outcomes of a cycle (40_pipeline_cycle.md R121). -/
inductive CycleOutcome (W : Widths := Widths.reference) where
  | completed
  | stalled
  | halted
  | fault (k : FaultKind W)
  deriving DecidableEq, Repr

/-- The Execute stage: ALU ops and register-file ops; everything else passes through unchanged (40_pipeline_cycle.md R125,
42_alu.md R145, R146; 43_regfile_ops.md R170 to R173). -/
def executeStage (c : Collaborators W) (s : State W) : DecodeAnswer W → StageEnd W
  | .record (.aluImm func imm) => .proceed (s.stageAlu (c.alu s.acc imm func))
  | .record (.aluReg func idx) =>
    match s.register idx with
    | some v => .proceed (s.stageAlu (c.alu s.acc v func))
    | none => .fault (.badRegisterIndex idx)
  | .record (.rfSet imm) => .proceed (s.setNextAcc imm)
  | .record (.rfGet idx) =>
    match s.register idx with
    | some v => .proceed (s.setNextAcc v)
    | none => .fault (.badRegisterIndex idx)
  | .record (.rfPut idx) =>
    match s.register idx with
    | some _ => .proceed (s.setNextRegister idx s.acc)
    | none => .fault (.badRegisterIndex idx)
  | .unknown (.registerFile code) => .fault (.unknownSubOp (.registerFile code))
  | _ => .proceed s

/-- The Memory-access stage: memory ops only (40_pipeline_cycle.md R126, 44_memory_ops.md R180 to R182). -/
def memoryStage (s : State W) : DecodeAnswer W → StageEnd W
  | .record .memLoad =>
    match (s.requestLoad s.dmar).pollLoad with
    | (some v, s') => .proceed (s'.setNextAcc v)
    | (none, s') => .stall s'
  | .record .memStore =>
    match (s.requestStore s.dmar s.acc).pollStore with
    | (true, s') => .proceed s'
    | (false, s') => .stall s'
  | .unknown (.memory code) => .fault (.unknownSubOp (.memory code))
  | _ => .proceed s

/-- The PC-update stage: exactly one staged pc; it never stalls (40_pipeline_cycle.md R127; 45_control_transfer.md R190, R191,
R196 to R199). -/
def pcUpdateStage (c : Collaborators W) (s : State W) : DecodeAnswer W → StageEnd W
  | .record (.branch code target) => .proceed (s.conditionallyBranch (c.cond code s.st) target)
  | .record (.jumpImmRel offset) => .proceed (s.jumpRelative offset)
  | .record .jumpRegRel => .proceed (s.jumpRelative s.imar)
  | .record .jumpRegAbs => .proceed (s.jumpAbsolute s.imar)
  | .unknown (.jump code) => .fault (.unknownSubOp (.jump code))
  | _ => .proceed s.increment

/-- The stages after Decode, in order; the first that stalls or faults ends the cycle (40_pipeline_cycle.md R120, R121). -/
def afterDecode (c : Collaborators W) (d : DecodeAnswer W) (s : State W) : CycleOutcome W × State W :=
  match executeStage c s d with
  | .fault k => (.fault k, s.raise k)
  | .stall s1 => (.stalled, s1.stall)
  | .proceed s1 =>
    match memoryStage s1 d with
    | .fault k => (.fault k, s1.raise k)
    | .stall s2 => (.stalled, s2.stall)
    | .proceed s2 =>
      match pcUpdateStage c s2 d with
      | .fault k => (.fault k, s2.raise k)
      | .stall s3 => (.stalled, s3.stall)
      | .proceed s3 => (.completed, s3)

/-- `Cycle`, the stage sequencer (40_pipeline_cycle.md R131). Precondition: neither halted nor faulted (R120). -/
def cycle (c : Collaborators W) (s : State W) : CycleOutcome W × State W :=
  match s.fetchStage with
  | (none, s1) => (.stalled, s1.stall)
  | (some w, s1) =>
    match c.decode w with
    | .reserved => (.fault (.reservedEncoding w s1.pc), s1.raise (.reservedEncoding w s1.pc))
    | .record .halt => (.halted, s1.halt)
    | d => afterDecode c d s1

/-- A snapshot of SimulatorState, a copy of the committed values (10_state.md R34, D27; assumption log 23). A
SimulationResult is the same tuple taken at the end of a run (46_run_loop.md R216). -/
structure Snapshot (W : Widths := Widths.reference) where
  cycleCount : Nat
  halted : Bool
  stalled : Bool
  acc : W.Data
  x : Regs W.Data W.idx
  st : Status
  pc : W.Addr
  stallLatch : Bool
  imem : Memory W.instr
  dmem : Memory W.data
  deriving DecidableEq, Repr

/-- The snapshot of the present state: `current_state()` (46_run_loop.md R219). It changes nothing. -/
def State.snapshot (s : State W) : Snapshot W where
  cycleCount := s.cycleCount
  halted := s.halted
  stalled := s.stalled
  acc := s.acc
  x := s.x
  st := s.st
  pc := s.pc
  stallLatch := s.stallLatch
  imem := s.imem
  dmem := s.dmem

/-- The tagged outcome of one iteration (46_run_loop.md R210). -/
inductive IterationOutcome (W : Widths := Widths.reference) where
  | continuing (snapshot : Snapshot W)
  | halted (result : Snapshot W)
  | fault (k : FaultKind W)
  deriving DecidableEq, Repr

/-- `Step`, one iteration of the run loop (46_run_loop.md R210 to R213, R222). Precondition: neither halted nor faulted, and
room in the counter for the cycle. -/
def iterate (c : Collaborators W) (s : State W) : IterationOutcome W × State W :=
  match cycle c s with
  | (.fault k, s1) => (.fault k, s1)
  | (.halted, s1) => (.halted s1.countCycle.snapshot, s1.countCycle)
  | (.stalled, s1) => (.continuing s1.countCycle.snapshot, s1.countCycle)
  | (.completed, s1) => (.continuing s1.countCycle.commitPhase.snapshot, s1.countCycle.commitPhase)

end Sys2Proof.Machine
end

