-- ==== Sys2Proof/Machine/RunLoop.lean ====
section
/-!
DEFINITION. The run loop, the watchdog and the host surface (46_run_loop.md R214 to R221, 20_memory.md R81 to R83,
70_reset_and_hazards.md R260 to R262). The host acts only between cycles (00_scope.md R6).
-/

namespace Sys2Proof.Machine

variable {W : Widths}

/-! ### Runs -/

/-- How a run ends (46_run_loop.md R214, R217, R220). -/
inductive RunEnd (W : Widths := Widths.reference) where
  /-- a halt instruction was decoded, or the machine was halted already -/
  | halted (result : Snapshot W)
  /-- the cycle bound was reached with `halted` false: the watchdog -/
  | timedOut (result : Snapshot W)
  /-- a fatal fault -/
  | faulted (k : FaultKind W)
  /-- the caller stopped consuming snapshots (R217) -/
  | abandoned
  /-- a finite counter has no room for one more cycle: refused, never in the reference instance (93 U20; log 17) -/
  | counterFull
  deriving DecidableEq, Repr

/-- A run: its snapshots in order, how it ended, and the state it left. -/
structure Run (W : Widths := Widths.reference) where
  snapshots : List (Snapshot W)
  ending : RunEnd W
  final : State W
  deriving DecidableEq, Repr

/-- `cycle_count` has reached the bound; the bound is absolute (46_run_loop.md R214, D20; assumption log 18). -/
def boundReached : Option Nat → State W → Bool
  | none, _ => false
  | some b, s => decide (b ≤ s.cycleCount)

/-- Whether a run ends before another cycle: fault first, then halt, then the bound, then a full
counter (46_run_loop.md R214, R221). -/
def endBeforeCycle (bound : Option Nat) (s : State W) : Option (RunEnd W) :=
  match s.fault with
  | some k => some (.faulted k)
  | none =>
    if s.halted then some (.halted s.snapshot)
    else if boundReached bound s then some (.timedOut s.snapshot)
    else if s.roomFor 1 then none
    else some .counterFull

/-- `run(bound?)` for a caller that consumes at most `take` cycles (46_run_loop.md R214, R217). -/
def runLoop (c : Collaborators W) (bound : Option Nat) : Nat → State W → Run W
  | 0, s =>
    match endBeforeCycle bound s with
    | some e => ⟨[], e, s⟩
    | none => ⟨[], .abandoned, s⟩
  | take + 1, s =>
    match endBeforeCycle bound s with
    | some e => ⟨[], e, s⟩
    | none =>
      match iterate c s with
      | (.continuing snap, s1) =>
        ⟨snap :: (runLoop c bound take s1).snapshots, (runLoop c bound take s1).ending, (runLoop c bound take s1).final⟩
      | (.halted r, s1) => ⟨[], .halted r, s1⟩
      | (.fault k, s1) => ⟨[], .faulted k, s1⟩

/-- `run(some b)`: a bounded run consumes at most the cycles left up to its bound (46_run_loop.md R214). -/
def runBounded (c : Collaborators W) (b : Nat) (s : State W) : Run W := runLoop c (some b) (b - s.cycleCount) s

/-- What `run_until_halt` answers (46_run_loop.md R215, 60_exceptions.md R233). -/
inductive HaltResult (W : Widths := Widths.reference) where
  | result (r : Snapshot W)
  | watchdogTimeout (cycleCount : Nat)
  | faulted (k : FaultKind W)
  | abandoned
  | counterFull
  deriving DecidableEq, Repr

/-- The answer for a run's end: a timeout becomes the failure that carries the count reached (46_run_loop.md R215). -/
def haltResult : RunEnd W → HaltResult W
  | .halted r => .result r
  | .timedOut r => .watchdogTimeout r.cycleCount
  | .faulted k => .faulted k
  | .abandoned => .abandoned
  | .counterFull => .counterFull

/-- `run_until_halt(some b)`: the run with its snapshots discarded (46_run_loop.md R215). -/
def runUntilHalt (c : Collaborators W) (b : Nat) (s : State W) : HaltResult W := haltResult (runBounded c b s).ending

/-! ### Host operations -/

/-- `reset()`: every cell at its reset value, the program and all history gone; the parameters are the machine's own and stay
(10_state.md R42, 70_reset_and_hazards.md R260). -/
def State.hostReset (s : State W) : State W := State.fresh s.params

/-- Why the host's load is refused; the machine state is unchanged (20_memory.md R81, R82; 60_exceptions.md R235). -/
inductive LoadError where
  /-- more words than the instruction memory has addresses (R81) -/
  | tooLong
  /-- bytes that are not a whole number of words, or a word that is not a whole number of bytes (R82) -/
  | notWholeWords
  /-- a cycle has run since reset: the host has no such move (R81, D24; assumption log 22) -/
  | duringRun
  deriving DecidableEq, Repr

/-- Words at consecutive addresses from `a`, wrapping (20_memory.md R81). -/
def writeWords {w n : Nat} (m : Memory w) (a : BitVec n) : List (BitVec w) → Memory w
  | [] => m
  | v :: vs => writeWords (Memory.write m a v) (a + 1) vs

/-- No cycle has run since reset: nothing counted, nothing faulted (a faulting cycle is not counted). -/
def State.beforeAnyRun (s : State W) : Bool := decide (s.cycleCount = 0) && s.fault.isNone && !s.halted

/-- `side_load` of instruction words at `LOAD_BASE` (20_memory.md R81). -/
def State.sideLoad (s : State W) (ws : List W.Word) : Except LoadError (State W) :=
  if ws.length ≤ 2 ^ W.addr then
    if s.beforeAnyRun then .ok { s with imem := writeWords s.imem s.params.loadBase ws }
    else .error .duringRun
  else .error .tooLong

/-- Bytes as one word, most significant byte first (20_memory.md R82, D12). -/
def wordOfBytes (n : Nat) (bytes : List Byte) : BitVec n := BitVec.ofNat n (bytes.foldl (fun v b => v * 256 + b.toNat) 0)

/-- Bytes packed into words of `size` bytes each, some bytes of the present word already read; `none` where the last word is
not whole (20_memory.md R82, D12). -/
def packFrom (n size : Nat) : List Byte → List Byte → Option (List (BitVec n))
  | [], [] => some []
  | _ :: _, [] => none
  | pending, b :: rest =>
    if pending.length + 1 = size then
      match packFrom n size [] rest with
      | some ws => some (wordOfBytes n (pending ++ [b]) :: ws)
      | none => none
    else packFrom n size (pending ++ [b]) rest

/-- Bytes packed into words of `n` bits; `none` where `n` is not a multiple of 8 or the bytes are not a whole number of words
(20_memory.md R82, D12). -/
def packWords (n : Nat) (bytes : List Byte) : Option (List (BitVec n)) :=
  if n % 8 = 0 then packFrom n (n / 8) [] bytes else none

/-- `load_binary(bytes)` (20_memory.md R82). -/
def State.loadBinary (s : State W) (bytes : List Byte) : Except LoadError (State W) :=
  match packWords W.instr bytes with
  | some ws => s.sideLoad ws
  | none => .error .notWholeWords

/-- `load_program` of an already assembled list of instructions (20_memory.md R83; the text is outside, 00_scope.md R4). -/
def State.loadProgram (s : State) (program : List Instr) : Except LoadError State := s.sideLoad (program.map encode)

end Sys2Proof.Machine
end

