-- ==== Sys2Proof/Safety.lean ====
section
/-!
DEFINITION. The terms claims are stated in: what a safe state is, what holds between cycles, how many not-ready answers the
present cycle's requests still meet, and a state with everything that only timing shows blanked out.
-/

namespace Sys2Proof.Machine

variable {W : Widths}

/-- No fatal fault has been raised; a faulted state is never a final state (60_exceptions.md R231). -/
abbrev State.Safe (s : State W) : Prop := s.fault = none

/-- A cycle may begin: neither halted nor faulted, and the counter has room for it, as it always has in the reference instance
(40_pipeline_cycle.md R120, 46_run_loop.md R221; 93 U20). -/
abbrev State.CanRun (s : State W) : Prop := s.halted = false ∧ s.fault = none ∧ s.roomFor 1 = true

/-- Every staged slot is empty, as it is at the start of every cycle (10_state.md R41). -/
abbrev State.Quiet (s : State W) : Prop :=
  s.nextAcc = none ∧ s.nextSt = none ∧ s.nextX = Regs.fill none ∧ s.nextPc = none ∧ s.stagedStore = none

/-- The not-ready answers this cycle's fetch still meets: those of the outstanding request for `pc`, or those of a new one
(20_memory.md R70). -/
def State.fetchWaits (s : State W) : Nat :=
  match s.imReq with
  | some r => if r.addr = s.pc then r.waits else WaitTable.waits s.params.imemWait s.pc
  | none => WaitTable.waits s.params.imemWait s.pc

/-- The not-ready answers a LOAD still meets in Memory-access (20_memory.md R71). -/
def State.loadWaits (s : State W) : Nat :=
  match s.dmReq with
  | some (.load a n) => if a = s.dmar then n else WaitTable.waits s.params.dmemLoadWait s.dmar
  | some (.store _ _ _) => WaitTable.waits s.params.dmemLoadWait s.dmar
  | none => WaitTable.waits s.params.dmemLoadWait s.dmar

/-- The not-complete answers a STORE still meets in Memory-access (20_memory.md R72). -/
def State.storeWaits (s : State W) : Nat :=
  match s.dmReq with
  | some (.store a v n) => if a = s.dmar ∧ v = s.acc then n else WaitTable.waits s.params.dmemStoreWait s.dmar
  | some (.load _ _) => WaitTable.waits s.params.dmemStoreWait s.dmar
  | none => WaitTable.waits s.params.dmemStoreWait s.dmar

/-- The word at `pc`, which the next ready fetch returns (20_memory.md R70). -/
def State.wordAtPc (s : State W) : W.Word := Memory.read s.imem s.pc

/-- The state a ready Fetch hands to Decode: the stalled flag and the latch clear, the request for `pc` ready and outstanding
until a commit retires it (40_pipeline_cycle.md R123, 20_memory.md R70). -/
def State.fetched (s : State W) : State W :=
  { s with stalled := false, stallLatch := false, imReq := some ⟨s.pc, 0⟩ }

/-- What every completed cycle does besides its instruction's own effect: it is counted and its commit retires both memories'
requests (46_run_loop.md R211, 20_memory.md R73, R74). -/
def State.ended (s : State W) : State W := { s with cycleCount := s.cycleCount + 1, imReq := none, dmReq := none }

/-- What every stalled cycle does besides counting down a wait: latch and flag set, counted, nothing committed
(40_pipeline_cycle.md R123, R126; 46_run_loop.md R211). -/
def State.stalledOnce (s : State W) : State W :=
  { s with cycleCount := s.cycleCount + 1, stalled := true, stallLatch := true }

/-- `k` steps, stopping where no further step exists (46_run_loop.md R217). -/
def steps : Nat → State → Host.Outcome State Fault Refusal
  | 0, s => .next s
  | k + 1, s =>
    match step s with
    | .next t => steps k t
    | .fault f => .fault f
    | .refused r => .refused r

/-- The cells a program or a snapshot can see of the register file, the program counter and the memories are the same. -/
def State.SameCommitted (s t : State W) : Prop :=
  t.acc = s.acc ∧ t.x = s.x ∧ t.st = s.st ∧ t.pc = s.pc ∧ t.imem = s.imem ∧ t.dmem = s.dmem

/-- The staged slots are the same. -/
def State.SameStaged (s t : State W) : Prop :=
  t.nextAcc = s.nextAcc ∧ t.nextX = s.nextX ∧ t.nextSt = s.nextSt ∧ t.nextPc = s.nextPc ∧ t.stagedStore = s.stagedStore

/-- The outstanding fetch is for `pc`; there is one exactly when the last cycle did not complete and some cycle has run. -/
def State.fetchInv (s : State W) : Prop :=
  match s.imReq with
  | some r => r.addr = s.pc ∧ (s.stalled = true ∨ s.halted = true ∨ s.fault ≠ none)
  | none => s.stalled = false ∧ s.halted = false ∧ s.fault = none

/-- A data request is outstanding only after a cycle stalled in Memory-access: the fetch is ready, the instruction at `pc` is
the LOAD or STORE that made it, and its address and value are those the retry will ask for (44_memory_ops.md R180, R181). -/
def State.dataInv (s : State) : Prop :=
  match s.dmReq with
  | some (.load a _) =>
    s.stalled = true ∧ s.imReq = some ⟨s.pc, 0⟩ ∧ decode s.wordAtPc = .instr .load ∧ a = s.dmar
  | some (.store a v _) =>
    s.stalled = true ∧ s.imReq = some ⟨s.pc, 0⟩ ∧ decode s.wordAtPc = .instr .store ∧ a = s.dmar ∧ v = s.acc
  | none => True

/-- What holds between cycles: both memories canonical, the parameters sound, a finite counter within its width, every staged
slot empty, the latch equal to the stalled flag, at most one of stalled, halted, faulted, and the ports' requests consistent
with the last cycle (10_state.md R30, R31, R33, R41; 46_run_loop.md R220, R222). -/
structure State.Inv (s : State) : Prop where
  imem_wf : Memory.wf s.imem = true
  dmem_wf : Memory.wf s.dmem = true
  params_wf : s.params.wf = true
  count_fits : s.roomFor 0 = true
  quiet : s.Quiet
  latch : s.stallLatch = s.stalled
  halted_only : s.halted = true → s.stalled = false ∧ s.fault = none ∧ s.imReq = some ⟨s.pc, 0⟩
  faulted_only : s.fault ≠ none → s.stalled = false ∧ s.halted = false ∧ s.imReq = some ⟨s.pc, 0⟩
  fetch : s.fetchInv
  data : s.dataInv

/-- The state with everything that only timing shows blanked: the counter, the stall flag and latch, the ports' requests and
the wait tables (70_reset_and_hazards.md R266). What is left is the committed values, `halted`, `fault` and the staged slots. -/
def State.timeless (s : State W) : State W :=
  { s with
    cycleCount := 0
    stalled := false
    stallLatch := false
    imReq := none
    dmReq := none
    params := { s.params with imemWait := [], dmemLoadWait := [], dmemStoreWait := [] } }

end Sys2Proof.Machine
end

