-- ==== Sys2Proof/WellFormed.lean ====
section
/-!
DEFINITION. When an instruction is well formed for a machine of `nreg` general registers: its register index names one of
them (10_state.md R22, decision D23). Every other operand is bounded by its type (00_scope.md R9), so there is nothing
else to check. In the reference instance `nreg = 16` and every instruction is well formed.
-/

namespace Sys2Proof

/-- The index names an existing general register: `idx < NREG` (10_state.md R22). -/
def RegIdx.present (nreg : Nat) (idx : RegIdx) : Bool := decide (idx.toNat < nreg)

/-- The check on each instruction: the seven register forms name an existing register. -/
def Instr.wellFormed (nreg : Nat) : Instr → Bool
  | .addi _ => true
  | .subi _ => true
  | .andi _ => true
  | .ori _ => true
  | .xori _ => true
  | .add idx => RegIdx.present nreg idx
  | .sub idx => RegIdx.present nreg idx
  | .and idx => RegIdx.present nreg idx
  | .or idx => RegIdx.present nreg idx
  | .xor idx => RegIdx.present nreg idx
  | .set _ => true
  | .get idx => RegIdx.present nreg idx
  | .put idx => RegIdx.present nreg idx
  | .load => true
  | .store => true
  | .bcc _ => true
  | .bcs _ => true
  | .bvc _ => true
  | .bvs _ => true
  | .jmpi _ => true
  | .jmpr => true
  | .jmpa => true
  | .halt => true

end Sys2Proof
end

