-- ==== Sys2Proof/Certificates/Slice0/Obligations.lean ====
section
/-!
DEFINITION. The statements for the provers. "Decision D<n>" is a choice of the spec's own, 92_eei_decisions.md; "log <n>" is
notes/assumptions/<n>.md. Every statement about a next state names the state it starts from by hypotheses on the state and the
operands alone; `Quiet` (every staged slot empty) is part of `State.Inv`, which every step keeps. `State` is the reference
instance's; the statements about the sequencer and the runs that quantify over `Widths` hold for every width (00_scope.md R7).
-/

namespace Sys2Proof.Claims

open Sys2Proof.Machine

/-- The answer is a next state with the given property. -/
def Answers (o : Host.Outcome State Fault Refusal) (p : State → Prop) : Prop := ∃ t, o = .next t ∧ p t

/-- The ten ALU instructions (42_alu.md). -/
def isAluOp : Instr → Bool
  | .addi _ | .subi _ | .andi _ | .ori _ | .xori _ => true
  | .add _ | .sub _ | .and _ | .or _ | .xor _ => true
  | _ => false

/-- The instructions that go on to the next address: every ALU op, SET, GET, PUT, LOAD, STORE (45_control_transfer.md R190). -/
def isSequential : Instr → Bool
  | .set _ | .get _ | .put _ | .load | .store => true
  | i => isAluOp i

/-- The four branches and three jumps (45_control_transfer.md). -/
def isTransfer : Instr → Bool
  | .bcc _ | .bcs _ | .bvc _ | .bvs _ | .jmpi _ | .jmpr | .jmpa => true
  | _ => false

/-- The register-index forms and their index (30_encoding.md R94). -/
def registerIndex : Instr → Option RegIdx
  | .add i | .sub i | .and i | .or i | .xor i | .get i | .put i => some i
  | _ => none

/-- An addition of `b`: sum modulo 256, carry iff the unsigned sum is 256 or more, overflow iff the signed sum leaves
-128..127; the pc goes on and nothing else changes but the count and the ports' retired requests (42_alu.md R148, ADD). -/
def Adds (s : State) (b : Data) (t : State) : Prop :=
  t.acc.toNat = (s.acc.toNat + b.toNat) % 256 ∧
  (t.st.c = true ↔ 256 ≤ s.acc.toNat + b.toNat) ∧
  (t.st.v = true ↔ s.acc.toInt + b.toInt < -128 ∨ 127 < s.acc.toInt + b.toInt) ∧
  t.pc.toNat = (s.pc.toNat + 1) % 256 ∧
  t = { s.ended with acc := t.acc, st := t.st, pc := t.pc }

/-- A subtraction of `b`: `acc - b` modulo 256, carry iff a borrow occurred, overflow iff the signed difference leaves
-128..127 (42_alu.md R148, SUB). -/
def Subtracts (s : State) (b : Data) (t : State) : Prop :=
  t.acc.toNat = (s.acc.toNat + 256 - b.toNat) % 256 ∧
  (t.st.c = true ↔ s.acc.toNat < b.toNat) ∧
  (t.st.v = true ↔ s.acc.toInt - b.toInt < -128 ∨ 127 < s.acc.toInt - b.toInt) ∧
  t.pc.toNat = (s.pc.toNat + 1) % 256 ∧
  t = { s.ended with acc := t.acc, st := t.st, pc := t.pc }

/-- A bitwise operation `f` with `b`: each result bit is `f` of the operands' bits, both flags clear (42_alu.md R148). -/
def CombinesBits (f : Bool → Bool → Bool) (s : State) (b : Data) (t : State) : Prop :=
  (∀ k, k < 8 → t.acc.getLsbD k = f (s.acc.getLsbD k) (b.getLsbD k)) ∧
  t.st.c = false ∧ t.st.v = false ∧
  t.pc.toNat = (s.pc.toNat + 1) % 256 ∧
  t = { s.ended with acc := t.acc, st := t.st, pc := t.pc }

/-- What no instruction but its named exceptions changes: instruction memory, the flags of the Controller, the parameters. -/
def KeepsMachine (s t : State) : Prop :=
  (∀ a : Addr, Memory.read t.imem a = Memory.read s.imem a) ∧ t.halted = s.halted ∧ t.fault = s.fault ∧ t.params = s.params

/-- Every word of the data memory reads as before. -/
def KeepsDataMemory (s t : State) : Prop := ∀ a : Addr, Memory.read t.dmem a = Memory.read s.dmem a

/-- Every general register, and so both address registers, reads as before. -/
def KeepsRegisters (s t : State) : Prop :=
  (∀ i, Regs.read t.x i = Regs.read s.x i) ∧ t.dmar = s.dmar ∧ t.imar = s.imar

/-- What an iteration's tagged outcome says of the state it leaves. -/
def OutcomeShows {W : Widths} (o : IterationOutcome W) (t : State W) : Prop :=
  match o with
  | .continuing snap => t.halted = false ∧ t.fault = none ∧ snap = t.snapshot
  | .halted r => t.halted = true ∧ t.fault = none ∧ r = t.snapshot
  | .fault k => t.halted = false ∧ t.fault = some k

/-- `t` is `s` but for what its staged slots hold. -/
def ButStaged {W : Widths} (s t : State W) : Prop :=
  t = { s with
    nextAcc := t.nextAcc, nextX := t.nextX, nextSt := t.nextSt, nextPc := t.nextPc, stagedStore := t.stagedStore }

/-- A slot that held `a` in one machine and `b` in the other, and holds `a'` and `b'` after the same act: it was left alone in
both, or holds the same in both. -/
def SlotAlike {α : Type} (a b a' b' : α) : Prop := (a' = a ∧ b' = b) ∨ a' = b'

/-- Two machines `s` and `t` that differ only in staged slots have done the same: what they have become differs only in staged
slots, and each slot was left alone in both or newly holds the same in both. -/
def StagedAlike {W : Widths} (s t s' t' : State W) : Prop :=
  ButStaged s' t' ∧
  SlotAlike s.nextAcc t.nextAcc s'.nextAcc t'.nextAcc ∧
  (∀ i, SlotAlike (Regs.read s.nextX i) (Regs.read t.nextX i) (Regs.read s'.nextX i) (Regs.read t'.nextX i)) ∧
  SlotAlike s.nextSt t.nextSt s'.nextSt t'.nextSt ∧
  SlotAlike s.nextPc t.nextPc s'.nextPc t'.nextPc ∧
  SlotAlike s.stagedStore t.stagedStore s'.stagedStore t'.stagedStore

/-- Two machines that differ only in staged slots end a stage alike: both stall, both raise the same fault or both go on. -/
def EndsAlike {W : Widths} (s t : State W) : StageEnd W → StageEnd W → Prop
  | .proceed s', .proceed t' => StagedAlike s t s' t'
  | .stall s', .stall t' => StagedAlike s t s' t'
  | .fault k, .fault k' => k = k'
  | _, _ => False

/-- The two bytes of an instruction word, most significant first (20_memory.md R82). -/
def wordBytes (w : InstrWord) : List Byte := [w.extractLsb' 8 8, w.extractLsb' 0 8]

end Sys2Proof.Claims

open Sys2Proof Sys2Proof.Machine Sys2Proof.Claims

/-! ### Encoding (30_encoding.md part 2; decision D5) -/

/-- Every instruction, with every operand, survives encoding and decoding (30_encoding.md R104; decision D5, log 5). -/
def Obligations.DecodeOfEncodeIsIdentity : Prop := ∀ i : Instr, decode (encode i) = .instr i

/-- Every word that is not reserved is the encoding of what it decodes to (30_encoding.md R104; decision D5, log 5). -/
def Obligations.EncodeOfDecodedWordIsTheWord : Prop := ∀ (w : InstrWord) (i : Instr), decode w = .instr i → encode i = w

/-- The decoder is the opcode table: a word decodes to an instruction of a row exactly when its masked bits are the row's
match word (30_encoding.md R96; decision D5, log 5). -/
def Obligations.DecodeAgreesWithOpcodeTable : Prop :=
  ∀ (w : InstrWord) (i : Instr),
    (decode w = .instr i → w &&& rowMask i = rowMatch i) ∧
    (w &&& rowMask i = rowMatch i →
      ∃ j, decode w = .instr j ∧ rowMatch j = rowMatch i ∧ rowMask j = rowMask i)

/-- The reserved words are exactly those R99 lists, field by field (30_encoding.md R94, R99; decisions D5, D6, log 5). -/
def Obligations.ReservedWordsAreExactlyTheListed : Prop :=
  ∀ w : InstrWord,
    (∃ why, decode w = .reserved why) ↔
      ((0xB ≤ w.toNat / 4096 ∧ w.toNat / 4096 ≤ 0xE) ∨
       ((w.toNat / 4096 = 0x0 ∨ w.toNat / 4096 = 0x1) ∧ 5 ≤ w.toNat / 256 % 16) ∨
       (w.toNat / 4096 = 0x7 ∧ 4 ≤ w.toNat / 256 % 16) ∨
       (w.toNat / 4096 = 0x1 ∧ w.toNat / 16 % 16 ≠ 0) ∨
       ((w.toNat / 4096 = 0x2 ∨ w.toNat / 4096 = 0x8) ∧ w.toNat / 256 % 16 ≠ 0) ∨
       ((w.toNat / 4096 = 0x3 ∨ w.toNat / 4096 = 0x4) ∧ (w.toNat / 256 % 16 ≠ 0 ∨ w.toNat / 16 % 16 ≠ 0)) ∨
       ((w.toNat / 4096 = 0x5 ∨ w.toNat / 4096 = 0x6 ∨ w.toNat / 4096 = 0x9 ∨ w.toNat / 4096 = 0xA ∨
          w.toNat / 4096 = 0xF) ∧ w.toNat % 4096 ≠ 0))

/-- Words written out from the encoding table decode to the instructions they stand for (30_encoding.md R102; log 5). -/
def Obligations.WrittenWordsDecode : Prop :=
  decode 0x0055 = .instr (.addi 0x55) ∧ decode 0x140F = .instr (.xor 15) ∧ decode 0x2005 = .instr (.set 5) ∧
  decode 0x3003 = .instr (.get 3) ∧ decode 0x400E = .instr (.put 14) ∧ decode 0x5000 = .instr .load ∧
  decode 0x6000 = .instr .store ∧ decode 0x7320 = .instr (.bvs 0x20) ∧ decode 0x80FE = .instr (.jmpi 0xFE) ∧
  decode 0x9000 = .instr .jmpr ∧ decode 0xA000 = .instr .jmpa ∧ decode 0xF000 = .instr .halt

/-! ### ALU instructions (42_alu.md; decision D7) -/

/-- ADDI and ADD add and complete (42_alu.md R149, R154; the sum and flags are decision D7, log 6). -/
def Obligations.AddInstructionsAdd : Prop :=
  ∀ s : State, s.Quiet →
    (∀ imm, Answers (exec (.addi imm) s) (Adds s imm)) ∧
    (∀ idx : RegIdx, idx.toNat < s.params.nreg → Answers (exec (.add idx) s) (Adds s (Regs.read s.x idx)))

/-- SUBI and SUB subtract operand B from the accumulator and complete (42_alu.md R150, R155; decision D7, log 6). -/
def Obligations.SubInstructionsSubtract : Prop :=
  ∀ s : State, s.Quiet →
    (∀ imm, Answers (exec (.subi imm) s) (Subtracts s imm)) ∧
    (∀ idx : RegIdx, idx.toNat < s.params.nreg → Answers (exec (.sub idx) s) (Subtracts s (Regs.read s.x idx)))

/-- The six logical instructions combine bit by bit, clear both flags and complete (42_alu.md R151 to R153, R156 to R158;
decision D7, log 6). -/
def Obligations.LogicalInstructionsCombineBits : Prop :=
  ∀ s : State, s.Quiet →
    (∀ imm, Answers (exec (.andi imm) s) (CombinesBits and s imm) ∧
      Answers (exec (.ori imm) s) (CombinesBits or s imm) ∧
      Answers (exec (.xori imm) s) (CombinesBits xor s imm)) ∧
    (∀ idx : RegIdx, idx.toNat < s.params.nreg →
      Answers (exec (.and idx) s) (CombinesBits and s (Regs.read s.x idx)) ∧
      Answers (exec (.or idx) s) (CombinesBits or s (Regs.read s.x idx)) ∧
      Answers (exec (.xor idx) s) (CombinesBits xor s (Regs.read s.x idx)))

/-- The two forms R148 gives of signed overflow agree: the exact signed value out of range, and the comparison of sign bits
(42_alu.md R148; decision D7, log 6). -/
def Obligations.SignedOverflowFormsAgree : Prop :=
  ∀ a b : Data,
    ((aluAdd a b).v = true ↔ a.getLsbD 7 = b.getLsbD 7 ∧ (aluAdd a b).result.getLsbD 7 ≠ a.getLsbD 7) ∧
    ((aluSub a b).v = true ↔ a.getLsbD 7 ≠ b.getLsbD 7 ∧ (aluSub a b).result.getLsbD 7 ≠ a.getLsbD 7)

/-- The frame of the ten ALU instructions: registers, both memories, the Controller's flags and the stall latch stay; only the
accumulator, the status register, the pc, the count and the ports' requests may change (10_state.md R40). -/
def Obligations.AluInstructionsFrame : Prop :=
  ∀ (i : Instr) (s t : State), isAluOp i = true → i.wellFormed s.params.nreg = true → s.Quiet → exec i s = .next t →
    KeepsRegisters s t ∧ KeepsDataMemory s t ∧ KeepsMachine s t ∧ t.stalled = s.stalled ∧ t.stallLatch = s.stallLatch ∧
    t.Quiet

/-- Every register-index form with an index that names no register raises the fault and changes nothing but the `fault` cell
(10_state.md R22, 60_exceptions.md R231; decisions D21, D23, log 2, 19). -/
def Obligations.MissingRegisterFaults : Prop :=
  ∀ (i : Instr) (idx : RegIdx) (s : State), registerIndex i = some idx → s.params.nreg ≤ idx.toNat →
    exec i s = .next { s with fault := some (.badRegisterIndex idx) }

/-! ### Register-file instructions (43_regfile_ops.md) -/

/-- SET, GET and PUT complete with the value moved and the status register untouched (43_regfile_ops.md R170 to R172). -/
def Obligations.SetGetPutMoveTheValue : Prop :=
  ∀ s : State, s.Quiet →
    (∀ imm, exec (.set imm) s = .next { s.ended with acc := imm, pc := s.pc + 1 }) ∧
    (∀ idx : RegIdx, idx.toNat < s.params.nreg →
      exec (.get idx) s = .next { s.ended with acc := Regs.read s.x idx, pc := s.pc + 1 } ∧
      Answers (exec (.put idx) s) fun t =>
        (∀ j, Regs.read t.x j = if j = idx then s.acc else Regs.read s.x j) ∧
        t = { s.ended with x := t.x, pc := s.pc + 1 })

/-- A PUT to the register an address register is a view of moves that address register, a PUT to another leaves it
(10_state.md R24, R25; decision D4, log 4). -/
def Obligations.PutMovesAddressRegisters : Prop :=
  ∀ (s : State) (idx : RegIdx), s.Quiet → idx.toNat < s.params.nreg →
    Answers (exec (.put idx) s) fun t =>
      t.dmar = (if s.params.dmarIdx = idx then s.acc else s.dmar) ∧
      t.imar = (if s.params.imarIdx = idx then s.acc else s.imar)

/-- The frame of SET, GET and PUT: the flags, both memories, the Controller's flags stay; SET and GET keep every register,
PUT keeps the accumulator and every register but its own (10_state.md R40, 43_regfile_ops.md R170 to R172). -/
def Obligations.RegisterFileInstructionsFrame : Prop :=
  ∀ (s t : State) (idx : RegIdx) (imm : Data), s.Quiet → idx.toNat < s.params.nreg →
    (exec (.set imm) s = .next t ∨ exec (.get idx) s = .next t →
      KeepsRegisters s t ∧ t.st = s.st ∧ KeepsDataMemory s t ∧ KeepsMachine s t ∧ t.stalled = s.stalled ∧
        t.stallLatch = s.stallLatch ∧ t.Quiet) ∧
    (exec (.put idx) s = .next t →
      (∀ j, j ≠ idx → Regs.read t.x j = Regs.read s.x j) ∧ t.acc = s.acc ∧ t.st = s.st ∧ KeepsDataMemory s t ∧
      KeepsMachine s t ∧ t.stalled = s.stalled ∧ t.stallLatch = s.stallLatch ∧ t.Quiet)

/-! ### Memory instructions (44_memory_ops.md) -/

/-- A LOAD whose port is ready completes with the committed word at `dmar` in the accumulator and no flag written
(44_memory_ops.md R180; when the port is ready is decision D14, log 12). -/
def Obligations.LoadReadsTheCommittedWord : Prop :=
  ∀ s : State, s.Quiet → s.loadWaits = 0 →
    exec .load s = .next { s.ended with acc := Memory.read s.dmem s.dmar, pc := s.pc + 1 }

/-- A LOAD whose port is not ready stalls: one wait less, latch and flag set, counted, nothing staged or committed
(44_memory_ops.md R180; the waits are decision D14, log 12). -/
def Obligations.LoadStallsWhileWaiting : Prop :=
  ∀ (s : State) (n : Nat), s.loadWaits = n + 1 →
    exec .load s = .next { s.stalledOnce with dmReq := some (.load s.dmar n) }

/-- A STORE whose port completes writes the accumulator at `dmar`, and only there (44_memory_ops.md R181, 20_memory.md R73;
when the port completes is decision D14, log 12). -/
def Obligations.StoreWritesAtDmar : Prop :=
  ∀ s : State, s.Quiet → Memory.wf s.dmem = true → s.storeWaits = 0 →
    Answers (exec .store s) fun t =>
      (∀ a : Addr, Memory.read t.dmem a = if a = s.dmar then s.acc else Memory.read s.dmem a) ∧
      t = { s.ended with dmem := t.dmem, pc := s.pc + 1 }

/-- A STORE whose port is not complete stalls and changes no word (44_memory_ops.md R181; decision D14, log 12). -/
def Obligations.StoreStallsWhileWaiting : Prop :=
  ∀ (s : State) (n : Nat), s.storeWaits = n + 1 →
    exec .store s = .next { s.stalledOnce with dmReq := some (.store s.dmar s.acc n) }

/-- The frame of LOAD and STORE, completed or stalled: registers and flags stay, LOAD keeps every data word, STORE keeps the
accumulator and every data word but the one at `dmar` (10_state.md R40, 44_memory_ops.md R180, R181). -/
def Obligations.MemoryInstructionsFrame : Prop :=
  ∀ s t : State, s.Quiet → Memory.wf s.dmem = true →
    (exec .load s = .next t →
      KeepsRegisters s t ∧ t.st = s.st ∧ KeepsDataMemory s t ∧ KeepsMachine s t ∧ t.Quiet) ∧
    (exec .store s = .next t →
      KeepsRegisters s t ∧ t.acc = s.acc ∧ t.st = s.st ∧
      (∀ a : Addr, a ≠ s.dmar → Memory.read t.dmem a = Memory.read s.dmem a) ∧ KeepsMachine s t ∧ t.Quiet)

/-- A LOAD in the step after a completed STORE returns the stored value: the register the address comes from is unchanged, so
the address is the same (20_memory.md R76). -/
def Obligations.StoreThenLoadReturnsValue : Prop :=
  ∀ s t : State, s.Quiet → Memory.wf s.dmem = true → s.fetchWaits = 0 → decode s.wordAtPc = .instr .store →
    s.storeWaits = 0 → step s = .next t → t.roomFor 1 = true → t.fetchWaits = 0 → decode t.wordAtPc = .instr .load →
    t.loadWaits = 0 → Answers (step t) fun u => u.acc = s.acc ∧ u.dmem = t.dmem

/-! ### Control transfer (45_control_transfer.md, 41_halt.md) -/

/-- BCC and BCS complete: to the target when the committed carry is clear, or set; else to the next address. Nothing else
changes (45_control_transfer.md R192, R193; the two conditions are the source's, their codes decision D8, log 7). -/
def Obligations.CarryBranchesTestTheCarry : Prop :=
  ∀ (s : State) (target : Addr), s.Quiet →
    exec (.bcc target) s = .next { s.ended with pc := if s.st.c = false then target else s.pc + 1 } ∧
    exec (.bcs target) s = .next { s.ended with pc := if s.st.c = true then target else s.pc + 1 }

/-- BVC and BVS complete: to the target when the committed overflow is clear, or set (45_control_transfer.md R194, R195;
decision D8, log 7). -/
def Obligations.OverflowBranchesTestTheOverflow : Prop :=
  ∀ (s : State) (target : Addr), s.Quiet →
    exec (.bvc target) s = .next { s.ended with pc := if s.st.v = false then target else s.pc + 1 } ∧
    exec (.bvs target) s = .next { s.ended with pc := if s.st.v = true then target else s.pc + 1 }

/-- The three jumps complete: JMPI and JMPR add to the jump's own address, wrapping at 256, JMPA takes `imar`
(45_control_transfer.md R196 to R198). -/
def Obligations.JumpsReachTheirTarget : Prop :=
  ∀ (s : State) (offset : Addr), s.Quiet →
    Answers (exec (.jmpi offset) s) (fun t =>
      t.pc.toNat = (s.pc.toNat + offset.toNat) % 256 ∧ t = { s.ended with pc := t.pc }) ∧
    Answers (exec .jmpr s) (fun t =>
      t.pc.toNat = (s.pc.toNat + s.imar.toNat) % 256 ∧ t = { s.ended with pc := t.pc }) ∧
    exec .jmpa s = .next { s.ended with pc := s.imar }

/-- The frame of the branches and jumps: the accumulator, the flags, every register, every word of both memories, the
Controller's flags, the stalled flag and the stall latch stay (10_state.md R33, R40). -/
def Obligations.ControlTransferFrame : Prop :=
  ∀ (i : Instr) (s t : State), isTransfer i = true → s.Quiet → exec i s = .next t →
    t.acc = s.acc ∧ t.st = s.st ∧ KeepsRegisters s t ∧ KeepsDataMemory s t ∧ KeepsMachine s t ∧
    t.stalled = s.stalled ∧ t.stallLatch = s.stallLatch ∧ t.Quiet

/-- HALT completes by setting `halted`: it is counted, the pc stays, nothing is staged and nothing is committed
(41_halt.md R140, 46_run_loop.md R212). -/
def Obligations.HaltSetsHaltedOnly : Prop :=
  ∀ s : State, exec .halt s = .next { s with halted := true, cycleCount := s.cycleCount + 1 }

/-- Every ALU op, SET, GET, PUT, LOAD and STORE that completes goes on to the next address, 0 after 255; HALT leaves the pc
(45_control_transfer.md R190). -/
def Obligations.SequentialInstructionsIncrement : Prop :=
  ∀ (i : Instr) (s t : State), s.fetchWaits = 0 → decode s.wordAtPc = .instr i → step s = .next t → t.stalled = false →
    t.fault = none →
    (isSequential i = true → t.pc.toNat = (s.pc.toNat + 1) % 256) ∧ (i = .halt → t.pc = s.pc)

/-! ### The step -/

/-- A step of a machine that is neither halted nor faulted, whose fetch is ready and whose word decodes, is `exec` of the
decoded instruction on the state Fetch leaves: flag and latch clear, the fetch request still outstanding
(40_pipeline_cycle.md R123, R124). -/
def Obligations.StepRunsTheDecodedInstruction : Prop :=
  ∀ (s : State) (i : Instr), s.CanRun → s.fetchWaits = 0 → decode (Memory.read s.imem s.pc) = .instr i →
    step s = exec i s.fetched

/-- A step whose fetch is not ready stalls: one wait less, latch and flag set, counted, nothing else
(40_pipeline_cycle.md R123; the waits are decision D14, log 12). -/
def Obligations.FetchStallsWhileWaiting : Prop :=
  ∀ (s : State) (n : Nat), s.CanRun → s.fetchWaits = n + 1 →
    step s = .next { s.stalledOnce with imReq := some ⟨s.pc, n⟩ }

/-- A step that fetches a reserved word raises the fault recording word and pc: not counted, not committed, flag and latch
clear (60_exceptions.md R232, 46_run_loop.md R222; decisions D6, D21, log 5, 19). -/
def Obligations.ReservedWordFaults : Prop :=
  ∀ (s : State) (why : Reserved), s.CanRun → s.fetchWaits = 0 → decode s.wordAtPc = .reserved why →
    step s = .next { s.fetched with fault := some (.reservedEncoding s.wordAtPc s.pc) }

/-- A faulted machine stops with its fault and a halted one as halted; neither has a next state. One that is neither is refused
when its finite counter is full and has a next state otherwise (46_run_loop.md R221, 93 U20; that a further step is a named
stop is the model's choice, log 17, 19, 20). -/
def Obligations.StoppedMachineTakesNoStep : Prop :=
  ∀ s : State,
    (∀ k, s.fault = some k → step s = .fault (.internalConsistency k)) ∧
    (s.halted = true → s.fault = none → step s = .fault .machineHalted) ∧
    (s.halted = false → s.fault = none → s.roomFor 1 = false → step s = .refused .cycleCountFull) ∧
    (s.CanRun → ∃ t, step s = .next t)

/-- Every step adds exactly one to `cycle_count`, stalled, completed or halted, but a step that raises a fault adds none
(46_run_loop.md R211; the fault's case is decision D21, log 19). -/
def Obligations.StepCountsTheCycle : Prop :=
  ∀ s t : State, step s = .next t →
    (t.fault = none → t.cycleCount = s.cycleCount + 1) ∧ (t.fault ≠ none → t.cycleCount = s.cycleCount)

/-- `halted` is set by a step exactly when Decode meets HALT, no stage or commit runs once it is set, and reset clears it
(10_state.md R32). -/
def Obligations.HaltedIsSetByHaltAndSticks : Prop :=
  ∀ s : State,
    (s.halted = true → ∀ t, step s ≠ .next t) ∧
    (∀ t, step s = .next t →
      (t.halted = true ↔ s.fetchWaits = 0 ∧ decode s.wordAtPc = .instr .halt) ∧
      (t.halted = true → t.cycleCount = s.cycleCount + 1 ∧ s.SameCommitted t)) ∧
    s.hostReset.halted = false

/-- Only an ALU op changes the status register (10_state.md R23). -/
def Obligations.StatusIsWrittenByAluOpsOnly : Prop :=
  ∀ s t : State, s.Quiet → step s = .next t → t.st ≠ s.st → ∃ i, decode s.wordAtPc = .instr i ∧ isAluOp i = true

/-- Only PUT changes a general register: its own, to the accumulator (43_regfile_ops.md R172, 10_state.md R22). -/
def Obligations.RegistersAreWrittenByPutOnly : Prop :=
  ∀ s t : State, s.Quiet → step s = .next t → t.x ≠ s.x →
    ∃ idx, decode s.wordAtPc = .instr (.put idx) ∧ ∀ j, Regs.read t.x j = if j = idx then s.acc else Regs.read s.x j

/-- No step changes an instruction word or a parameter: self-modifying code is impossible, and a run fetches what was loaded
(20_memory.md R79, R62). -/
def Obligations.InstructionMemoryIsNeverWritten : Prop :=
  ∀ (k : Nat) (s t : State), steps k s = .next t → t.imem = s.imem ∧ t.params = s.params

/-- After a stalled step everything but the counter, the flag, the latch and the ports' requests is what it was, so the retry
fetches the same `pc`, reads the same word and the same operand values; whether it reaches Memory-access is what it was too:
a stall there has left the fetch ready. That a stall leaves one wait less is the reference port protocol, a choice of the spec
(40_pipeline_cycle.md R122, 20_memory.md R70 to R72; decision D14, log 12). -/
def Obligations.StalledStepChangesNothingCommitted : Prop :=
  ∀ s t : State, step s = .next t → t.stalled = true →
    t = { s.stalledOnce with imReq := t.imReq, dmReq := t.dmReq } ∧ t.halted = false ∧ t.fault = none ∧ t.pc = s.pc ∧ t.wordAtPc = s.wordAtPc ∧
    t.acc = s.acc ∧ t.dmar = s.dmar ∧ t.imar = s.imar ∧ (s.fetchWaits ≠ 0 → t.fetchWaits + 1 = s.fetchWaits) ∧
    (s.fetchWaits = 0 → t.fetchWaits = 0 ∧
      (decode s.wordAtPc = .instr .load ∧ t.loadWaits + 1 = s.loadWaits ∨
        decode s.wordAtPc = .instr .store ∧ t.storeWaits + 1 = s.storeWaits))

/-- A step that raises a fault has changed nothing but `fault`, the flag, the latch and the fetch request, and the machine
takes no further step (60_exceptions.md R238, 46_run_loop.md R222; decision D21, log 19). -/
def Obligations.FaultingStepIsPrecise : Prop :=
  ∀ (s t : State) (k : FaultKind), step s = .next t → t.fault = some k →
    t = { s.fetched with fault := some k } ∧ step t = .fault (.internalConsistency k)

/-! ### Invariants -/

/-- Every step keeps the invariant: memories canonical, a finite counter within its width, staged slots empty, latch equal to the stalled flag, halted and
faulted states as R220 and R222 describe them, ports' requests those the retry will make (10_state.md R30, R41;
46_run_loop.md R220, R222). -/
def Obligations.InvariantIsKeptByEveryStep : Prop := ∀ s t : State, s.Inv → step s = .next t → t.Inv

/-- The invariant holds right after reset; the reset values of registers, pc and memories are the reference ones (log 8, 9). -/
def Obligations.InvariantHoldsAtReset : Prop := State.reset.Inv

/-- `reset()` leaves every cell at its value of Table R42 for the machine's parameters, whatever the state before, and the
invariant holds there (10_state.md R42, 70_reset_and_hazards.md R260; decisions D10, D11, log 8, 9). -/
def Obligations.HostResetRestoresTheTable : Prop :=
  ∀ s : State, s.params.wf = true → Memory.wf s.params.imemInit = true → Memory.wf s.params.dmemInit = true →
    s.hostReset.Inv ∧ s.hostReset.CanRun ∧ s.hostReset.cycleCount = 0 ∧ s.hostReset.acc = s.params.resetAcc ∧
    (∀ i : RegIdx, Regs.read s.hostReset.x i = Regs.read s.params.resetX i) ∧ s.hostReset.st = s.params.resetSt ∧
    s.hostReset.pc = s.params.resetPc ∧ (∀ a : Addr, Memory.read s.hostReset.imem a = Memory.read s.params.imemInit a) ∧
    (∀ a : Addr, Memory.read s.hostReset.dmem a = Memory.read s.params.dmemInit a) ∧ s.hostReset.imReq = none ∧
    s.hostReset.dmReq = none

/-! ### The stage sequencer, for any decoder, ALU and condition (40_pipeline_cycle.md, 46_run_loop.md) -/

/-- The machine organised by instruction is the machine organised by stage: a step is one iteration of the run loop over the
stage sequencer with the reference collaborators (40_pipeline_cycle.md R131, 46_run_loop.md R210). -/
def Obligations.StepAgreesWithStageSequencer : Prop :=
  ∀ s : State, s.CanRun →
    step s = .next (iterate Collaborators.reference s).2 ∧
    OutcomeShows (iterate Collaborators.reference s).1 (iterate Collaborators.reference s).2

/-- For any widths, decoder and ALU, an ALU op's cycle, ended by its commit, has committed the ALU's result and flags for
(accumulator, operand B, function code), operand B the immediate or the committed register, and goes on
(42_alu.md R145, R146; 40_pipeline_cycle.md R128; 46_run_loop.md R210). -/
def Obligations.SequencerCommitsAluResult : Prop :=
  ∀ (W : Widths) (c : Collaborators W) (s : State W) (func : FuncCode), s.Quiet → s.fetchWaits = 0 →
    (∀ imm, c.decode s.wordAtPc = .record (.aluImm func imm) →
      (iterate c s).2 = { s.fetched.ended with
        acc := (c.alu s.acc imm func).result
        st := ⟨(c.alu s.acc imm func).v, (c.alu s.acc imm func).c⟩
        pc := s.pc + 1 }) ∧
    (∀ idx : W.Idx, idx.toNat < s.params.nreg → c.decode s.wordAtPc = .record (.aluReg func idx) →
      (iterate c s).2 = { s.fetched.ended with
        acc := (c.alu s.acc (Regs.read s.x idx) func).result
        st := ⟨(c.alu s.acc (Regs.read s.x idx) func).v, (c.alu s.acc (Regs.read s.x idx) func).c⟩
        pc := s.pc + 1 })

/-- For any widths, decoder and condition, a branch tests the committed status and changes nothing but the pc
(45_control_transfer.md R191). -/
def Obligations.SequencerBranchesOnCommittedStatus : Prop :=
  ∀ (W : Widths) (c : Collaborators W) (s : State W) (code : CondCode) (target : W.Addr), s.Quiet → s.fetchWaits = 0 →
    c.decode s.wordAtPc = .record (.branch code target) →
    (iterate c s).2 = { s.fetched.ended with pc := if c.cond code s.st = true then target else s.pc + 1 }

/-- For any widths and collaborators: a cycle stalls only in Fetch or in Memory-access and exactly when that port still waits,
and halts only in Decode; a cycle that stalls, halts or faults commits nothing and leaves every staged slot as it was; a cycle
that completes is counted and then runs the commit phase (40_pipeline_cycle.md R121, R129, R132). -/
def Obligations.ShortCircuitCommitsNothing : Prop :=
  ∀ (W : Widths) (c : Collaborators W) (s : State W),
    ((cycle c s).1 = .stalled ↔
      s.fetchWaits ≠ 0 ∨ (c.decode s.wordAtPc = .record .memLoad ∧ s.loadWaits ≠ 0) ∨
        (c.decode s.wordAtPc = .record .memStore ∧ s.storeWaits ≠ 0)) ∧
    ((cycle c s).1 = .halted ↔ s.fetchWaits = 0 ∧ c.decode s.wordAtPc = .record .halt) ∧
    ((cycle c s).1 ≠ .completed → s.SameCommitted (iterate c s).2 ∧ s.SameStaged (iterate c s).2) ∧
    ((cycle c s).1 = .completed → (iterate c s).2 = (cycle c s).2.countCycle.commitPhase)

/-- For any widths and collaborators: a record with an unrecognised sub-operation ends the cycle in the fault, in whatever stage meets
it, with nothing staged, counted or committed (43 R173, 44 R182, 45 R199, 60 R231; decision D21, log 19, 29). -/
def Obligations.UnknownSubOperationFaults : Prop :=
  ∀ (W : Widths) (c : Collaborators W) (s : State W) (u : UnknownSub), s.fetchWaits = 0 → c.decode s.wordAtPc = .unknown u →
    iterate c s = (.fault (.unknownSubOp u), { s.fetched with fault := some (.unknownSubOp u) })

/-! ### Commits -/

/-- No stage reads a staged slot, for any widths and collaborators: each of the four stages that act, run on two machines that
differ only in their staged slots, stalls, faults or goes on in both alike, and newly stages the same. And no stage changes a
committed value. What a PUT staged, a GET of that register in the next cycle reads (40_pipeline_cycle.md R130). -/
def Obligations.StagedWritesAreInvisibleUntilCommit : Prop :=
  (∀ (W : Widths) (c : Collaborators W) (d : DecodeAnswer W) (s t : State W), ButStaged s t →
    s.fetchStage.1 = t.fetchStage.1 ∧ StagedAlike s t s.fetchStage.2 t.fetchStage.2 ∧
    EndsAlike s t (executeStage c s d) (executeStage c t d) ∧
    EndsAlike s t (memoryStage s d) (memoryStage t d) ∧
    EndsAlike s t (pcUpdateStage c s d) (pcUpdateStage c t d)) ∧
  (∀ (W : Widths) (c : Collaborators W) (d : DecodeAnswer W) (s t : State W),
    executeStage c s d = .proceed t ∨ memoryStage s d = .proceed t ∨ pcUpdateStage c s d = .proceed t →
      s.SameCommitted t ∧ (∀ i, t.register i = s.register i) ∧ t.dmar = s.dmar ∧ t.imar = s.imar) ∧
  (∀ (s t : State) (idx : RegIdx), s.Quiet → idx.toNat < s.params.nreg → s.fetchWaits = 0 →
    decode s.wordAtPc = .instr (.put idx) → step s = .next t → t.roomFor 1 = true → t.fetchWaits = 0 →
      decode t.wordAtPc = .instr (.get idx) → Answers (step t) fun u => u.acc = s.acc)

/-- The register file's commit makes every staged value current, keeps every cell with nothing staged, empties every slot,
and the address registers show the new values of the registers they are views of (10_state.md R27). -/
def Obligations.RegisterFileCommitMakesStagedCurrent : Prop :=
  ∀ s : State,
    (∀ v, s.nextAcc = some v → s.commitRegisterFile.acc = v) ∧ (s.nextAcc = none → s.commitRegisterFile.acc = s.acc) ∧
    (∀ q, s.nextSt = some q → s.commitRegisterFile.st = q) ∧ (s.nextSt = none → s.commitRegisterFile.st = s.st) ∧
    (∀ i v, Regs.read s.nextX i = some v → Regs.read s.commitRegisterFile.x i = v) ∧
    (∀ i, Regs.read s.nextX i = none → Regs.read s.commitRegisterFile.x i = Regs.read s.x i) ∧
    s.commitRegisterFile.nextAcc = none ∧ s.commitRegisterFile.nextSt = none ∧
    (∀ i, Regs.read s.commitRegisterFile.nextX i = none) ∧
    s.commitRegisterFile.dmar = Regs.read s.commitRegisterFile.x s.params.dmarIdx ∧
    s.commitRegisterFile.imar = Regs.read s.commitRegisterFile.x s.params.imarIdx

/-- The data memory's commit applies a staged store at its address, so that a LOAD there in the next cycle gets the stored
value; it empties the slot and retires the request; and no step changes a data word any other way: only a completed STORE
does, at `dmar`, to the accumulator (20_memory.md R73). -/
def Obligations.DataMemoryChangesByStoreCommitOnly : Prop :=
  ∀ s : State, Memory.wf s.dmem = true →
    (∀ a v, s.stagedStore = some (a, v) →
      (∀ b : Addr, Memory.read s.commitDataMemory.dmem b = if b = a then v else Memory.read s.dmem b) ∧
      ∀ u : State, u.dmem = s.commitDataMemory.dmem → u.dmar = a → u.Quiet → u.loadWaits = 0 →
        Answers (exec .load u) fun w => w.acc = v) ∧
    (s.stagedStore = none → s.commitDataMemory.dmem = s.dmem) ∧
    s.commitDataMemory.stagedStore = none ∧ s.commitDataMemory.dmReq = none ∧
    (∀ t, s.Quiet → step s = .next t → t.dmem ≠ s.dmem →
      decode s.wordAtPc = .instr .store ∧
      ∀ b : Addr, Memory.read t.dmem b = if b = s.dmar then s.acc else Memory.read s.dmem b)

/-! ### Runs and the host surface (46_run_loop.md, 20_memory.md) -/

/-- A bounded run always ends by halt, timeout or fault, or by a refusal where a finite counter is full; it never takes
`cycle_count` past the bound, and a timeout leaves an unhalted, unfaulted state exactly at the bound
(46_run_loop.md R214; the absolute bound is decision D20, log 18; the counter is D19, log 17). -/
def Obligations.BoundedRunEndsByTheBound : Prop :=
  ∀ (W : Widths) (c : Collaborators W) (b : Nat) (s : State W), s.cycleCount ≤ b →
    (runBounded c b s).ending ≠ .abandoned ∧ (runBounded c b s).final.cycleCount ≤ b ∧
    (∀ r, (runBounded c b s).ending = .timedOut r →
      (runBounded c b s).final.halted = false ∧ (runBounded c b s).final.fault = none ∧
      (runBounded c b s).final.cycleCount = b) ∧
    (s.params.cycleWidth = none → (runBounded c b s).ending ≠ .counterFull)

/-- A run produces one snapshot per cycle that does not halt or fault, stalled cycles included, in the order of their counts,
none of them halted: one less than the cycles counted when it halts, all of them otherwise (46_run_loop.md R212, R213;
decision D18, log 16; that a faulting cycle is not counted is decision D21, log 19). -/
def Obligations.SnapshotsCountTheCycles : Prop :=
  ∀ (W : Widths) (c : Collaborators W) (bound : Option Nat) (take : Nat) (s : State W), s.CanRun →
    (∀ r, (runLoop c bound take s).ending = .halted r →
      (runLoop c bound take s).final.cycleCount = s.cycleCount + (runLoop c bound take s).snapshots.length + 1) ∧
    ((∀ r, (runLoop c bound take s).ending ≠ .halted r) →
      (runLoop c bound take s).final.cycleCount = s.cycleCount + (runLoop c bound take s).snapshots.length) ∧
    (∀ k snap, (runLoop c bound take s).snapshots[k]? = some snap →
      snap.cycleCount = s.cycleCount + k + 1 ∧ snap.halted = false)

/-- How a run from a machine that can run may end, for any collaborators. Halted: `halted` set, the pc at the halt word, its
ready fetch still outstanding, no further step. Timed out: the bound reached by a machine neither halted nor faulted, and a
run with a larger bound goes on as if it had not stopped. Faulted: the fault stays, the machine is not halted, no further
step. Every staged slot is empty in each case, and where none of these has come after the cycles consumed the machine can
still run, unless its finite counter is full (46_run_loop.md R220; that the bound is absolute is decision D20, log 18; the
counter is decision D19, log 17). -/
def Obligations.RunEndsInOneOfThreeWays : Prop :=
  ∀ (c : Collaborators) (bound : Option Nat) (take : Nat) (s : State), s.CanRun → s.Quiet →
    (runLoop c bound take s).final.Quiet ∧
    match (runLoop c bound take s).ending with
    | .halted _ =>
      (runLoop c bound take s).final.halted = true ∧ (runLoop c bound take s).final.fault = none ∧
      c.decode (runLoop c bound take s).final.wordAtPc = .record .halt ∧
      (runLoop c bound take s).final.imReq = some ⟨(runLoop c bound take s).final.pc, 0⟩ ∧
      ∀ t, step (runLoop c bound take s).final ≠ .next t
    | .timedOut _ =>
      (runLoop c bound take s).final.halted = false ∧ (runLoop c bound take s).final.fault = none ∧
      ∃ b, bound = some b ∧ b ≤ (runLoop c bound take s).final.cycleCount ∧
        ∀ larger n, b ≤ larger →
          runLoop c (some larger) ((runLoop c bound take s).snapshots.length + n) s =
            ⟨(runLoop c bound take s).snapshots ++ (runLoop c (some larger) n (runLoop c bound take s).final).snapshots,
              (runLoop c (some larger) n (runLoop c bound take s).final).ending,
              (runLoop c (some larger) n (runLoop c bound take s).final).final⟩
    | .faulted k =>
      (runLoop c bound take s).final.fault = some k ∧ (runLoop c bound take s).final.halted = false ∧
      ∀ t, step (runLoop c bound take s).final ≠ .next t
    | .abandoned => (runLoop c bound take s).final.CanRun
    | .counterFull =>
      (runLoop c bound take s).final.halted = false ∧ (runLoop c bound take s).final.fault = none ∧
      (runLoop c bound take s).final.roomFor 1 = false

/-- A HALT decoded before the bound ends the run normally, for any widths and collaborators: the cycle is counted, nothing is committed,
no snapshot is produced and the result shows the final count with `halted` set (46_run_loop.md R212). -/
def Obligations.HaltingIterationEndsTheRun : Prop :=
  ∀ (W : Widths) (c : Collaborators W) (bound : Option Nat) (take : Nat) (s t : State W), s.CanRun → s.fetchWaits = 0 →
    c.decode s.wordAtPc = .record .halt → t = { s.fetched with halted := true, cycleCount := s.cycleCount + 1 } →
    iterate c s = (.halted t.snapshot, t) ∧
    (boundReached bound s = false → runLoop c bound (take + 1) s = ⟨[], .halted t.snapshot, t⟩)

/-- `run_until_halt` is the run with its snapshots discarded: it answers the result of a halted run and turns a timeout into
the watchdog failure carrying the count reached, while the run itself ends with a result whose `halted` is false; a run that
has reached its bound unhalted and unfaulted fails with that timeout; without a bound there is no timeout
(46_run_loop.md R215; that the bound is compared with `cycle_count` itself is decision D20, log 18). -/
def Obligations.RunUntilHaltAnswersResultOrTimeout : Prop :=
  ∀ (W : Widths) (c : Collaborators W) (bound : Option Nat) (take : Nat) (s : State W),
    (∀ b, runUntilHalt c b s = haltResult (runLoop c (some b) (b - s.cycleCount) s).ending) ∧
    (∀ b, (runBounded c b s).final.halted = false → (runBounded c b s).final.fault = none →
      b ≤ (runBounded c b s).final.cycleCount →
      runUntilHalt c b s = .watchdogTimeout (runBounded c b s).final.cycleCount) ∧
    (∀ r, (runLoop c bound take s).ending = .halted r →
      haltResult (runLoop c bound take s).ending = .result r ∧ r = (runLoop c bound take s).final.snapshot ∧
      r.halted = true) ∧
    (∀ r, (runLoop c bound take s).ending = .timedOut r →
      haltResult (runLoop c bound take s).ending = .watchdogTimeout (runLoop c bound take s).final.cycleCount ∧
      r = (runLoop c bound take s).final.snapshot ∧ r.halted = false ∧
      ∃ b, bound = some b ∧ b ≤ (runLoop c bound take s).final.cycleCount)

/-- A caller that stops consuming leaves the machine between cycles, after exactly the cycles it consumed; consuming on from
there is the run it would have seen without the pause (46_run_loop.md R217). -/
def Obligations.AbandonedRunMayBeResumed : Prop :=
  ∀ (W : Widths) (c : Collaborators W) (bound : Option Nat) (m n : Nat) (s : State W), (runLoop c bound m s).ending = .abandoned →
    (runLoop c bound m s).snapshots.length = m ∧ (s.Quiet → (runLoop c bound m s).final.Quiet) ∧
    runLoop c bound (m + n) s =
      ⟨(runLoop c bound m s).snapshots ++ (runLoop c bound n (runLoop c bound m s).final).snapshots,
        (runLoop c bound n (runLoop c bound m s).final).ending, (runLoop c bound n (runLoop c bound m s).final).final⟩

/-- A run on a halted machine takes no cycle and returns the present result; on a faulted one it fails with the same fault
(46_run_loop.md R221; decisions D20, D21, log 18, 19). -/
def Obligations.RunOnStoppedMachineTakesNoCycle : Prop :=
  ∀ (W : Widths) (c : Collaborators W) (bound : Option Nat) (take : Nat) (s : State W),
    (s.halted = true → s.fault = none → runLoop c bound take s = ⟨[], .halted s.snapshot, s⟩) ∧
    (∀ k, s.fault = some k → runLoop c bound take s = ⟨[], .faulted k, s⟩)

/-- A program of at most 256 words loaded before any run stands word by word from `LOAD_BASE` on, wrapping, and nothing else
changes; a longer one, or one during a run, is refused (20_memory.md R81; decisions D12, D24, log 10, 22). -/
def Obligations.SideLoadInstallsTheProgram : Prop :=
  ∀ (s : State) (ws : List InstrWord), Memory.wf s.imem = true →
    (ws.length ≤ 256 → s.beforeAnyRun = true →
      ∃ t, s.sideLoad ws = .ok t ∧ t = { s with imem := t.imem } ∧
        (∀ k w, ws[k]? = some w → Memory.read t.imem (s.params.loadBase + BitVec.ofNat 8 k) = w) ∧
        (∀ a, (∀ k, k < ws.length → a ≠ s.params.loadBase + BitVec.ofNat 8 k) →
          Memory.read t.imem a = Memory.read s.imem a)) ∧
    (256 < ws.length → s.sideLoad ws = .error .tooLong) ∧
    (ws.length ≤ 256 → s.beforeAnyRun = false → s.sideLoad ws = .error .duringRun)

/-- `load_binary` of the bytes of a word list, most significant first, is `side_load` of those words; an odd number of bytes
is refused (20_memory.md R82; decision D12, log 10). -/
def Obligations.LoadBinaryPacksBytesIntoWords : Prop :=
  ∀ s : State,
    (∀ ws : List InstrWord, s.loadBinary (ws.flatMap wordBytes) = s.sideLoad ws) ∧
    (∀ bytes : List Byte, bytes.length % 2 = 1 → s.loadBinary bytes = .error .notWholeWords)

/-! ### Timing (20_memory.md R75, 70_reset_and_hazards.md R266; decision D14) -/

/-- A fetch stalls exactly its waits, once a step, and then the instruction runs (20_memory.md R70, R75; decision D14,
log 12). A finite counter needs room for the cycles (log 17). -/
def Obligations.FetchStallsExactlyItsWaits : Prop :=
  ∀ (s : State) (i : Instr), s.CanRun → s.roomFor (s.fetchWaits + 1) = true → decode s.wordAtPc = .instr i →
    steps (s.fetchWaits + 1) s = exec i { s.fetched with cycleCount := s.cycleCount + s.fetchWaits } ∧
    (∀ k n, k + n + 1 = s.fetchWaits →
      steps (k + 1) s = .next { s with
        cycleCount := s.cycleCount + k + 1, stalled := true, stallLatch := true, imReq := some ⟨s.pc, n⟩ })

/-- A LOAD completes after its fetch waits and its load waits, and a STORE after its fetch waits and its store waits, with
the effect it has without waits (20_memory.md R75, R71, R72; decision D14, log 12). A finite counter needs room for the
cycles (log 17). -/
def Obligations.LoadAndStoreTakeTheirWaits : Prop :=
  ∀ s : State, s.CanRun → s.Quiet →
    (decode s.wordAtPc = .instr .load → s.roomFor (s.fetchWaits + s.loadWaits + 1) = true →
      steps (s.fetchWaits + s.loadWaits + 1) s = .next { s.fetched.ended with
        cycleCount := s.cycleCount + (s.fetchWaits + s.loadWaits + 1)
        acc := Memory.read s.dmem s.dmar
        pc := s.pc + 1 }) ∧
    (decode s.wordAtPc = .instr .store → s.roomFor (s.fetchWaits + s.storeWaits + 1) = true →
      steps (s.fetchWaits + s.storeWaits + 1) s = .next { s.fetched.ended with
        cycleCount := s.cycleCount + (s.fetchWaits + s.storeWaits + 1)
        dmem := Memory.write s.dmem s.dmar s.acc
        pc := s.pc + 1 })

/-- Latency changes only counts: if two machines agree on everything but the counter, the stall marks, the ports' requests and
the wait tables, then whatever state one reaches, a halt or a fault among them, the other reaches one with the same committed
values, `halted` and `fault` (70_reset_and_hazards.md R266, R267). The counter is unbounded, as in the reference instance
(decision D19, log 17): a finite one may be full in one machine and not in the other. -/
def Obligations.LatencyChangesOnlyCounts : Prop :=
  ∀ (s t s' : State) (m : Nat), s.timeless = t.timeless → t.params.cycleWidth = none → steps m s = .next s' →
    ∃ n t', steps n t = .next t' ∧ t'.timeless = s'.timeless
end

