-- ==== Sys2Proof/Laws/Decode.lean ====
section
/-!
SUPPORT. The field laws of an instruction word: a word is its three fields, and each field of a built word is what was put
there (30_encoding.md R93).
-/

namespace Sys2Proof

/-- A word is built of its own fields. -/
theorem wordOf_fields (w : InstrWord) : wordOf (opField w) (subField w) (argField w) = w := by
  unfold wordOf opField subField argField
  apply BitVec.eq_of_getLsbD_eq
  intro k hk
  simp only [BitVec.getLsbD_append, BitVec.getLsbD_extractLsb']
  grind

/-- An argument field is its two halves. -/
theorem hi_append_idx (w : InstrWord) : hiField w ++ idxField w = argField w := by
  unfold hiField idxField argField
  apply BitVec.eq_of_getLsbD_eq
  intro k hk
  simp only [BitVec.getLsbD_append, BitVec.getLsbD_extractLsb']
  grind

/-- An argument field whose upper half is zero is a register index. -/
theorem regArg_idxField {w : InstrWord} (h : hiField w = 0) : regArg (idxField w) = argField w := by
  rw [← hi_append_idx, h]; rfl

@[simp] theorem opField_wordOf (op sub : BitVec 4) (arg : BitVec 8) : opField (wordOf op sub arg) = op := by
  unfold wordOf opField
  apply BitVec.eq_of_getLsbD_eq
  intro k hk
  simp only [BitVec.getLsbD_append, BitVec.getLsbD_extractLsb']
  grind

@[simp] theorem subField_wordOf (op sub : BitVec 4) (arg : BitVec 8) : subField (wordOf op sub arg) = sub := by
  unfold wordOf subField
  apply BitVec.eq_of_getLsbD_eq
  intro k hk
  simp only [BitVec.getLsbD_append, BitVec.getLsbD_extractLsb']
  grind

@[simp] theorem argField_wordOf (op sub : BitVec 4) (arg : BitVec 8) : argField (wordOf op sub arg) = arg := by
  unfold wordOf argField
  apply BitVec.eq_of_getLsbD_eq
  intro k hk
  simp only [BitVec.getLsbD_append, BitVec.getLsbD_extractLsb']
  grind

/-- The fields as arithmetic on the word's number (00_scope.md R8). -/
theorem opField_toNat (w : InstrWord) : (opField w).toNat = w.toNat / 4096 := by
  have := w.isLt
  simp only [opField, BitVec.extractLsb'_toNat, Nat.shiftRight_eq_div_pow]; omega

theorem subField_toNat (w : InstrWord) : (subField w).toNat = w.toNat / 256 % 16 := by
  simp only [subField, BitVec.extractLsb'_toNat, Nat.shiftRight_eq_div_pow]

theorem argField_toNat (w : InstrWord) : (argField w).toNat = w.toNat % 256 := by
  simp only [argField, BitVec.extractLsb'_toNat, Nat.shiftRight_eq_div_pow]; norm_num

theorem hiField_toNat (w : InstrWord) : (hiField w).toNat = w.toNat / 16 % 16 := by
  simp only [hiField, BitVec.extractLsb'_toNat, Nat.shiftRight_eq_div_pow]

end Sys2Proof
end

