-- ==== Sys2Proof/Laws/State.lean ====
section
/-!
SUPPORT. One lemma per field per update of the state, each true by rfl and tagged simp, so that no later proof unfolds a
record update.
-/

namespace Sys2Proof.Machine

variable {W : Widths} (s : State W)

@[simp] theorem State.setNextAcc_cycleCount (v : W.Data) : (s.setNextAcc v).cycleCount = s.cycleCount := rfl
@[simp] theorem State.setNextAcc_halted (v : W.Data) : (s.setNextAcc v).halted = s.halted := rfl
@[simp] theorem State.setNextAcc_stalled (v : W.Data) : (s.setNextAcc v).stalled = s.stalled := rfl
@[simp] theorem State.setNextAcc_fault (v : W.Data) : (s.setNextAcc v).fault = s.fault := rfl
@[simp] theorem State.setNextAcc_acc (v : W.Data) : (s.setNextAcc v).acc = s.acc := rfl
@[simp] theorem State.setNextAcc_x (v : W.Data) : (s.setNextAcc v).x = s.x := rfl
@[simp] theorem State.setNextAcc_st (v : W.Data) : (s.setNextAcc v).st = s.st := rfl
@[simp] theorem State.setNextAcc_nextAcc (v : W.Data) : (s.setNextAcc v).nextAcc = some v := rfl
@[simp] theorem State.setNextAcc_nextX (v : W.Data) : (s.setNextAcc v).nextX = s.nextX := rfl
@[simp] theorem State.setNextAcc_nextSt (v : W.Data) : (s.setNextAcc v).nextSt = s.nextSt := rfl
@[simp] theorem State.setNextAcc_pc (v : W.Data) : (s.setNextAcc v).pc = s.pc := rfl
@[simp] theorem State.setNextAcc_nextPc (v : W.Data) : (s.setNextAcc v).nextPc = s.nextPc := rfl
@[simp] theorem State.setNextAcc_stallLatch (v : W.Data) : (s.setNextAcc v).stallLatch = s.stallLatch := rfl
@[simp] theorem State.setNextAcc_imem (v : W.Data) : (s.setNextAcc v).imem = s.imem := rfl
@[simp] theorem State.setNextAcc_imReq (v : W.Data) : (s.setNextAcc v).imReq = s.imReq := rfl
@[simp] theorem State.setNextAcc_dmem (v : W.Data) : (s.setNextAcc v).dmem = s.dmem := rfl
@[simp] theorem State.setNextAcc_stagedStore (v : W.Data) : (s.setNextAcc v).stagedStore = s.stagedStore := rfl
@[simp] theorem State.setNextAcc_dmReq (v : W.Data) : (s.setNextAcc v).dmReq = s.dmReq := rfl
@[simp] theorem State.setNextAcc_params (v : W.Data) : (s.setNextAcc v).params = s.params := rfl

@[simp] theorem State.setNextRegister_cycleCount (i : W.Idx) (v : W.Data) : (s.setNextRegister i v).cycleCount = s.cycleCount := rfl
@[simp] theorem State.setNextRegister_halted (i : W.Idx) (v : W.Data) : (s.setNextRegister i v).halted = s.halted := rfl
@[simp] theorem State.setNextRegister_stalled (i : W.Idx) (v : W.Data) : (s.setNextRegister i v).stalled = s.stalled := rfl
@[simp] theorem State.setNextRegister_fault (i : W.Idx) (v : W.Data) : (s.setNextRegister i v).fault = s.fault := rfl
@[simp] theorem State.setNextRegister_acc (i : W.Idx) (v : W.Data) : (s.setNextRegister i v).acc = s.acc := rfl
@[simp] theorem State.setNextRegister_x (i : W.Idx) (v : W.Data) : (s.setNextRegister i v).x = s.x := rfl
@[simp] theorem State.setNextRegister_st (i : W.Idx) (v : W.Data) : (s.setNextRegister i v).st = s.st := rfl
@[simp] theorem State.setNextRegister_nextAcc (i : W.Idx) (v : W.Data) : (s.setNextRegister i v).nextAcc = s.nextAcc := rfl
@[simp] theorem State.setNextRegister_nextX (i : W.Idx) (v : W.Data) : (s.setNextRegister i v).nextX = Regs.write s.nextX i (some v) := rfl
@[simp] theorem State.setNextRegister_nextSt (i : W.Idx) (v : W.Data) : (s.setNextRegister i v).nextSt = s.nextSt := rfl
@[simp] theorem State.setNextRegister_pc (i : W.Idx) (v : W.Data) : (s.setNextRegister i v).pc = s.pc := rfl
@[simp] theorem State.setNextRegister_nextPc (i : W.Idx) (v : W.Data) : (s.setNextRegister i v).nextPc = s.nextPc := rfl
@[simp] theorem State.setNextRegister_stallLatch (i : W.Idx) (v : W.Data) : (s.setNextRegister i v).stallLatch = s.stallLatch := rfl
@[simp] theorem State.setNextRegister_imem (i : W.Idx) (v : W.Data) : (s.setNextRegister i v).imem = s.imem := rfl
@[simp] theorem State.setNextRegister_imReq (i : W.Idx) (v : W.Data) : (s.setNextRegister i v).imReq = s.imReq := rfl
@[simp] theorem State.setNextRegister_dmem (i : W.Idx) (v : W.Data) : (s.setNextRegister i v).dmem = s.dmem := rfl
@[simp] theorem State.setNextRegister_stagedStore (i : W.Idx) (v : W.Data) : (s.setNextRegister i v).stagedStore = s.stagedStore := rfl
@[simp] theorem State.setNextRegister_dmReq (i : W.Idx) (v : W.Data) : (s.setNextRegister i v).dmReq = s.dmReq := rfl
@[simp] theorem State.setNextRegister_params (i : W.Idx) (v : W.Data) : (s.setNextRegister i v).params = s.params := rfl

@[simp] theorem State.setNextStatus_cycleCount (o c : Bool) : (s.setNextStatus o c).cycleCount = s.cycleCount := rfl
@[simp] theorem State.setNextStatus_halted (o c : Bool) : (s.setNextStatus o c).halted = s.halted := rfl
@[simp] theorem State.setNextStatus_stalled (o c : Bool) : (s.setNextStatus o c).stalled = s.stalled := rfl
@[simp] theorem State.setNextStatus_fault (o c : Bool) : (s.setNextStatus o c).fault = s.fault := rfl
@[simp] theorem State.setNextStatus_acc (o c : Bool) : (s.setNextStatus o c).acc = s.acc := rfl
@[simp] theorem State.setNextStatus_x (o c : Bool) : (s.setNextStatus o c).x = s.x := rfl
@[simp] theorem State.setNextStatus_st (o c : Bool) : (s.setNextStatus o c).st = s.st := rfl
@[simp] theorem State.setNextStatus_nextAcc (o c : Bool) : (s.setNextStatus o c).nextAcc = s.nextAcc := rfl
@[simp] theorem State.setNextStatus_nextX (o c : Bool) : (s.setNextStatus o c).nextX = s.nextX := rfl
@[simp] theorem State.setNextStatus_nextSt (o c : Bool) : (s.setNextStatus o c).nextSt = some ⟨o, c⟩ := rfl
@[simp] theorem State.setNextStatus_pc (o c : Bool) : (s.setNextStatus o c).pc = s.pc := rfl
@[simp] theorem State.setNextStatus_nextPc (o c : Bool) : (s.setNextStatus o c).nextPc = s.nextPc := rfl
@[simp] theorem State.setNextStatus_stallLatch (o c : Bool) : (s.setNextStatus o c).stallLatch = s.stallLatch := rfl
@[simp] theorem State.setNextStatus_imem (o c : Bool) : (s.setNextStatus o c).imem = s.imem := rfl
@[simp] theorem State.setNextStatus_imReq (o c : Bool) : (s.setNextStatus o c).imReq = s.imReq := rfl
@[simp] theorem State.setNextStatus_dmem (o c : Bool) : (s.setNextStatus o c).dmem = s.dmem := rfl
@[simp] theorem State.setNextStatus_stagedStore (o c : Bool) : (s.setNextStatus o c).stagedStore = s.stagedStore := rfl
@[simp] theorem State.setNextStatus_dmReq (o c : Bool) : (s.setNextStatus o c).dmReq = s.dmReq := rfl
@[simp] theorem State.setNextStatus_params (o c : Bool) : (s.setNextStatus o c).params = s.params := rfl

@[simp] theorem State.commitRegisterFile_cycleCount : (s.commitRegisterFile).cycleCount = s.cycleCount := rfl
@[simp] theorem State.commitRegisterFile_halted : (s.commitRegisterFile).halted = s.halted := rfl
@[simp] theorem State.commitRegisterFile_stalled : (s.commitRegisterFile).stalled = s.stalled := rfl
@[simp] theorem State.commitRegisterFile_fault : (s.commitRegisterFile).fault = s.fault := rfl
@[simp] theorem State.commitRegisterFile_acc : (s.commitRegisterFile).acc = s.nextAcc.getD s.acc := rfl
@[simp] theorem State.commitRegisterFile_x : (s.commitRegisterFile).x = commitRegs s.x s.nextX := rfl
@[simp] theorem State.commitRegisterFile_st : (s.commitRegisterFile).st = s.nextSt.getD s.st := rfl
@[simp] theorem State.commitRegisterFile_nextAcc : (s.commitRegisterFile).nextAcc = none := rfl
@[simp] theorem State.commitRegisterFile_nextX : (s.commitRegisterFile).nextX = Regs.fill none := rfl
@[simp] theorem State.commitRegisterFile_nextSt : (s.commitRegisterFile).nextSt = none := rfl
@[simp] theorem State.commitRegisterFile_pc : (s.commitRegisterFile).pc = s.pc := rfl
@[simp] theorem State.commitRegisterFile_nextPc : (s.commitRegisterFile).nextPc = s.nextPc := rfl
@[simp] theorem State.commitRegisterFile_stallLatch : (s.commitRegisterFile).stallLatch = s.stallLatch := rfl
@[simp] theorem State.commitRegisterFile_imem : (s.commitRegisterFile).imem = s.imem := rfl
@[simp] theorem State.commitRegisterFile_imReq : (s.commitRegisterFile).imReq = s.imReq := rfl
@[simp] theorem State.commitRegisterFile_dmem : (s.commitRegisterFile).dmem = s.dmem := rfl
@[simp] theorem State.commitRegisterFile_stagedStore : (s.commitRegisterFile).stagedStore = s.stagedStore := rfl
@[simp] theorem State.commitRegisterFile_dmReq : (s.commitRegisterFile).dmReq = s.dmReq := rfl
@[simp] theorem State.commitRegisterFile_params : (s.commitRegisterFile).params = s.params := rfl

@[simp] theorem State.setStall_cycleCount (b : Bool) : (s.setStall b).cycleCount = s.cycleCount := rfl
@[simp] theorem State.setStall_halted (b : Bool) : (s.setStall b).halted = s.halted := rfl
@[simp] theorem State.setStall_stalled (b : Bool) : (s.setStall b).stalled = s.stalled := rfl
@[simp] theorem State.setStall_fault (b : Bool) : (s.setStall b).fault = s.fault := rfl
@[simp] theorem State.setStall_acc (b : Bool) : (s.setStall b).acc = s.acc := rfl
@[simp] theorem State.setStall_x (b : Bool) : (s.setStall b).x = s.x := rfl
@[simp] theorem State.setStall_st (b : Bool) : (s.setStall b).st = s.st := rfl
@[simp] theorem State.setStall_nextAcc (b : Bool) : (s.setStall b).nextAcc = s.nextAcc := rfl
@[simp] theorem State.setStall_nextX (b : Bool) : (s.setStall b).nextX = s.nextX := rfl
@[simp] theorem State.setStall_nextSt (b : Bool) : (s.setStall b).nextSt = s.nextSt := rfl
@[simp] theorem State.setStall_pc (b : Bool) : (s.setStall b).pc = s.pc := rfl
@[simp] theorem State.setStall_nextPc (b : Bool) : (s.setStall b).nextPc = s.nextPc := rfl
@[simp] theorem State.setStall_stallLatch (b : Bool) : (s.setStall b).stallLatch = b := rfl
@[simp] theorem State.setStall_imem (b : Bool) : (s.setStall b).imem = s.imem := rfl
@[simp] theorem State.setStall_imReq (b : Bool) : (s.setStall b).imReq = s.imReq := rfl
@[simp] theorem State.setStall_dmem (b : Bool) : (s.setStall b).dmem = s.dmem := rfl
@[simp] theorem State.setStall_stagedStore (b : Bool) : (s.setStall b).stagedStore = s.stagedStore := rfl
@[simp] theorem State.setStall_dmReq (b : Bool) : (s.setStall b).dmReq = s.dmReq := rfl
@[simp] theorem State.setStall_params (b : Bool) : (s.setStall b).params = s.params := rfl

@[simp] theorem State.increment_cycleCount : (s.increment).cycleCount = s.cycleCount := rfl
@[simp] theorem State.increment_halted : (s.increment).halted = s.halted := rfl
@[simp] theorem State.increment_stalled : (s.increment).stalled = s.stalled := rfl
@[simp] theorem State.increment_fault : (s.increment).fault = s.fault := rfl
@[simp] theorem State.increment_acc : (s.increment).acc = s.acc := rfl
@[simp] theorem State.increment_x : (s.increment).x = s.x := rfl
@[simp] theorem State.increment_st : (s.increment).st = s.st := rfl
@[simp] theorem State.increment_nextAcc : (s.increment).nextAcc = s.nextAcc := rfl
@[simp] theorem State.increment_nextX : (s.increment).nextX = s.nextX := rfl
@[simp] theorem State.increment_nextSt : (s.increment).nextSt = s.nextSt := rfl
@[simp] theorem State.increment_pc : (s.increment).pc = s.pc := rfl
@[simp] theorem State.increment_nextPc : (s.increment).nextPc = some (s.pc + 1) := rfl
@[simp] theorem State.increment_stallLatch : (s.increment).stallLatch = s.stallLatch := rfl
@[simp] theorem State.increment_imem : (s.increment).imem = s.imem := rfl
@[simp] theorem State.increment_imReq : (s.increment).imReq = s.imReq := rfl
@[simp] theorem State.increment_dmem : (s.increment).dmem = s.dmem := rfl
@[simp] theorem State.increment_stagedStore : (s.increment).stagedStore = s.stagedStore := rfl
@[simp] theorem State.increment_dmReq : (s.increment).dmReq = s.dmReq := rfl
@[simp] theorem State.increment_params : (s.increment).params = s.params := rfl

@[simp] theorem State.conditionallyBranch_cycleCount (t : Bool) (a : W.Addr) : (s.conditionallyBranch t a).cycleCount = s.cycleCount := rfl
@[simp] theorem State.conditionallyBranch_halted (t : Bool) (a : W.Addr) : (s.conditionallyBranch t a).halted = s.halted := rfl
@[simp] theorem State.conditionallyBranch_stalled (t : Bool) (a : W.Addr) : (s.conditionallyBranch t a).stalled = s.stalled := rfl
@[simp] theorem State.conditionallyBranch_fault (t : Bool) (a : W.Addr) : (s.conditionallyBranch t a).fault = s.fault := rfl
@[simp] theorem State.conditionallyBranch_acc (t : Bool) (a : W.Addr) : (s.conditionallyBranch t a).acc = s.acc := rfl
@[simp] theorem State.conditionallyBranch_x (t : Bool) (a : W.Addr) : (s.conditionallyBranch t a).x = s.x := rfl
@[simp] theorem State.conditionallyBranch_st (t : Bool) (a : W.Addr) : (s.conditionallyBranch t a).st = s.st := rfl
@[simp] theorem State.conditionallyBranch_nextAcc (t : Bool) (a : W.Addr) : (s.conditionallyBranch t a).nextAcc = s.nextAcc := rfl
@[simp] theorem State.conditionallyBranch_nextX (t : Bool) (a : W.Addr) : (s.conditionallyBranch t a).nextX = s.nextX := rfl
@[simp] theorem State.conditionallyBranch_nextSt (t : Bool) (a : W.Addr) : (s.conditionallyBranch t a).nextSt = s.nextSt := rfl
@[simp] theorem State.conditionallyBranch_pc (t : Bool) (a : W.Addr) : (s.conditionallyBranch t a).pc = s.pc := rfl
@[simp] theorem State.conditionallyBranch_nextPc (t : Bool) (a : W.Addr) : (s.conditionallyBranch t a).nextPc = some (if t then a else s.pc + 1) := rfl
@[simp] theorem State.conditionallyBranch_stallLatch (t : Bool) (a : W.Addr) : (s.conditionallyBranch t a).stallLatch = s.stallLatch := rfl
@[simp] theorem State.conditionallyBranch_imem (t : Bool) (a : W.Addr) : (s.conditionallyBranch t a).imem = s.imem := rfl
@[simp] theorem State.conditionallyBranch_imReq (t : Bool) (a : W.Addr) : (s.conditionallyBranch t a).imReq = s.imReq := rfl
@[simp] theorem State.conditionallyBranch_dmem (t : Bool) (a : W.Addr) : (s.conditionallyBranch t a).dmem = s.dmem := rfl
@[simp] theorem State.conditionallyBranch_stagedStore (t : Bool) (a : W.Addr) : (s.conditionallyBranch t a).stagedStore = s.stagedStore := rfl
@[simp] theorem State.conditionallyBranch_dmReq (t : Bool) (a : W.Addr) : (s.conditionallyBranch t a).dmReq = s.dmReq := rfl
@[simp] theorem State.conditionallyBranch_params (t : Bool) (a : W.Addr) : (s.conditionallyBranch t a).params = s.params := rfl

@[simp] theorem State.jumpRelative_cycleCount (a : W.Addr) : (s.jumpRelative a).cycleCount = s.cycleCount := rfl
@[simp] theorem State.jumpRelative_halted (a : W.Addr) : (s.jumpRelative a).halted = s.halted := rfl
@[simp] theorem State.jumpRelative_stalled (a : W.Addr) : (s.jumpRelative a).stalled = s.stalled := rfl
@[simp] theorem State.jumpRelative_fault (a : W.Addr) : (s.jumpRelative a).fault = s.fault := rfl
@[simp] theorem State.jumpRelative_acc (a : W.Addr) : (s.jumpRelative a).acc = s.acc := rfl
@[simp] theorem State.jumpRelative_x (a : W.Addr) : (s.jumpRelative a).x = s.x := rfl
@[simp] theorem State.jumpRelative_st (a : W.Addr) : (s.jumpRelative a).st = s.st := rfl
@[simp] theorem State.jumpRelative_nextAcc (a : W.Addr) : (s.jumpRelative a).nextAcc = s.nextAcc := rfl
@[simp] theorem State.jumpRelative_nextX (a : W.Addr) : (s.jumpRelative a).nextX = s.nextX := rfl
@[simp] theorem State.jumpRelative_nextSt (a : W.Addr) : (s.jumpRelative a).nextSt = s.nextSt := rfl
@[simp] theorem State.jumpRelative_pc (a : W.Addr) : (s.jumpRelative a).pc = s.pc := rfl
@[simp] theorem State.jumpRelative_nextPc (a : W.Addr) : (s.jumpRelative a).nextPc = some (s.pc + a) := rfl
@[simp] theorem State.jumpRelative_stallLatch (a : W.Addr) : (s.jumpRelative a).stallLatch = s.stallLatch := rfl
@[simp] theorem State.jumpRelative_imem (a : W.Addr) : (s.jumpRelative a).imem = s.imem := rfl
@[simp] theorem State.jumpRelative_imReq (a : W.Addr) : (s.jumpRelative a).imReq = s.imReq := rfl
@[simp] theorem State.jumpRelative_dmem (a : W.Addr) : (s.jumpRelative a).dmem = s.dmem := rfl
@[simp] theorem State.jumpRelative_stagedStore (a : W.Addr) : (s.jumpRelative a).stagedStore = s.stagedStore := rfl
@[simp] theorem State.jumpRelative_dmReq (a : W.Addr) : (s.jumpRelative a).dmReq = s.dmReq := rfl
@[simp] theorem State.jumpRelative_params (a : W.Addr) : (s.jumpRelative a).params = s.params := rfl

@[simp] theorem State.jumpAbsolute_cycleCount (a : W.Addr) : (s.jumpAbsolute a).cycleCount = s.cycleCount := rfl
@[simp] theorem State.jumpAbsolute_halted (a : W.Addr) : (s.jumpAbsolute a).halted = s.halted := rfl
@[simp] theorem State.jumpAbsolute_stalled (a : W.Addr) : (s.jumpAbsolute a).stalled = s.stalled := rfl
@[simp] theorem State.jumpAbsolute_fault (a : W.Addr) : (s.jumpAbsolute a).fault = s.fault := rfl
@[simp] theorem State.jumpAbsolute_acc (a : W.Addr) : (s.jumpAbsolute a).acc = s.acc := rfl
@[simp] theorem State.jumpAbsolute_x (a : W.Addr) : (s.jumpAbsolute a).x = s.x := rfl
@[simp] theorem State.jumpAbsolute_st (a : W.Addr) : (s.jumpAbsolute a).st = s.st := rfl
@[simp] theorem State.jumpAbsolute_nextAcc (a : W.Addr) : (s.jumpAbsolute a).nextAcc = s.nextAcc := rfl
@[simp] theorem State.jumpAbsolute_nextX (a : W.Addr) : (s.jumpAbsolute a).nextX = s.nextX := rfl
@[simp] theorem State.jumpAbsolute_nextSt (a : W.Addr) : (s.jumpAbsolute a).nextSt = s.nextSt := rfl
@[simp] theorem State.jumpAbsolute_pc (a : W.Addr) : (s.jumpAbsolute a).pc = s.pc := rfl
@[simp] theorem State.jumpAbsolute_nextPc (a : W.Addr) : (s.jumpAbsolute a).nextPc = some a := rfl
@[simp] theorem State.jumpAbsolute_stallLatch (a : W.Addr) : (s.jumpAbsolute a).stallLatch = s.stallLatch := rfl
@[simp] theorem State.jumpAbsolute_imem (a : W.Addr) : (s.jumpAbsolute a).imem = s.imem := rfl
@[simp] theorem State.jumpAbsolute_imReq (a : W.Addr) : (s.jumpAbsolute a).imReq = s.imReq := rfl
@[simp] theorem State.jumpAbsolute_dmem (a : W.Addr) : (s.jumpAbsolute a).dmem = s.dmem := rfl
@[simp] theorem State.jumpAbsolute_stagedStore (a : W.Addr) : (s.jumpAbsolute a).stagedStore = s.stagedStore := rfl
@[simp] theorem State.jumpAbsolute_dmReq (a : W.Addr) : (s.jumpAbsolute a).dmReq = s.dmReq := rfl
@[simp] theorem State.jumpAbsolute_params (a : W.Addr) : (s.jumpAbsolute a).params = s.params := rfl

@[simp] theorem State.commitProgramCounter_cycleCount : (s.commitProgramCounter).cycleCount = s.cycleCount := rfl
@[simp] theorem State.commitProgramCounter_halted : (s.commitProgramCounter).halted = s.halted := rfl
@[simp] theorem State.commitProgramCounter_stalled : (s.commitProgramCounter).stalled = s.stalled := rfl
@[simp] theorem State.commitProgramCounter_fault : (s.commitProgramCounter).fault = s.fault := rfl
@[simp] theorem State.commitProgramCounter_acc : (s.commitProgramCounter).acc = s.acc := rfl
@[simp] theorem State.commitProgramCounter_x : (s.commitProgramCounter).x = s.x := rfl
@[simp] theorem State.commitProgramCounter_st : (s.commitProgramCounter).st = s.st := rfl
@[simp] theorem State.commitProgramCounter_nextAcc : (s.commitProgramCounter).nextAcc = s.nextAcc := rfl
@[simp] theorem State.commitProgramCounter_nextX : (s.commitProgramCounter).nextX = s.nextX := rfl
@[simp] theorem State.commitProgramCounter_nextSt : (s.commitProgramCounter).nextSt = s.nextSt := rfl
@[simp] theorem State.commitProgramCounter_pc : (s.commitProgramCounter).pc = s.nextPc.getD s.pc := rfl
@[simp] theorem State.commitProgramCounter_nextPc : (s.commitProgramCounter).nextPc = none := rfl
@[simp] theorem State.commitProgramCounter_stallLatch : (s.commitProgramCounter).stallLatch = s.stallLatch := rfl
@[simp] theorem State.commitProgramCounter_imem : (s.commitProgramCounter).imem = s.imem := rfl
@[simp] theorem State.commitProgramCounter_imReq : (s.commitProgramCounter).imReq = s.imReq := rfl
@[simp] theorem State.commitProgramCounter_dmem : (s.commitProgramCounter).dmem = s.dmem := rfl
@[simp] theorem State.commitProgramCounter_stagedStore : (s.commitProgramCounter).stagedStore = s.stagedStore := rfl
@[simp] theorem State.commitProgramCounter_dmReq : (s.commitProgramCounter).dmReq = s.dmReq := rfl
@[simp] theorem State.commitProgramCounter_params : (s.commitProgramCounter).params = s.params := rfl

@[simp] theorem State.commitInstrMemory_cycleCount : (s.commitInstrMemory).cycleCount = s.cycleCount := rfl
@[simp] theorem State.commitInstrMemory_halted : (s.commitInstrMemory).halted = s.halted := rfl
@[simp] theorem State.commitInstrMemory_stalled : (s.commitInstrMemory).stalled = s.stalled := rfl
@[simp] theorem State.commitInstrMemory_fault : (s.commitInstrMemory).fault = s.fault := rfl
@[simp] theorem State.commitInstrMemory_acc : (s.commitInstrMemory).acc = s.acc := rfl
@[simp] theorem State.commitInstrMemory_x : (s.commitInstrMemory).x = s.x := rfl
@[simp] theorem State.commitInstrMemory_st : (s.commitInstrMemory).st = s.st := rfl
@[simp] theorem State.commitInstrMemory_nextAcc : (s.commitInstrMemory).nextAcc = s.nextAcc := rfl
@[simp] theorem State.commitInstrMemory_nextX : (s.commitInstrMemory).nextX = s.nextX := rfl
@[simp] theorem State.commitInstrMemory_nextSt : (s.commitInstrMemory).nextSt = s.nextSt := rfl
@[simp] theorem State.commitInstrMemory_pc : (s.commitInstrMemory).pc = s.pc := rfl
@[simp] theorem State.commitInstrMemory_nextPc : (s.commitInstrMemory).nextPc = s.nextPc := rfl
@[simp] theorem State.commitInstrMemory_stallLatch : (s.commitInstrMemory).stallLatch = s.stallLatch := rfl
@[simp] theorem State.commitInstrMemory_imem : (s.commitInstrMemory).imem = s.imem := rfl
@[simp] theorem State.commitInstrMemory_imReq : (s.commitInstrMemory).imReq = none := rfl
@[simp] theorem State.commitInstrMemory_dmem : (s.commitInstrMemory).dmem = s.dmem := rfl
@[simp] theorem State.commitInstrMemory_stagedStore : (s.commitInstrMemory).stagedStore = s.stagedStore := rfl
@[simp] theorem State.commitInstrMemory_dmReq : (s.commitInstrMemory).dmReq = s.dmReq := rfl
@[simp] theorem State.commitInstrMemory_params : (s.commitInstrMemory).params = s.params := rfl

@[simp] theorem State.commitDataMemory_cycleCount : (s.commitDataMemory).cycleCount = s.cycleCount := rfl
@[simp] theorem State.commitDataMemory_halted : (s.commitDataMemory).halted = s.halted := rfl
@[simp] theorem State.commitDataMemory_stalled : (s.commitDataMemory).stalled = s.stalled := rfl
@[simp] theorem State.commitDataMemory_fault : (s.commitDataMemory).fault = s.fault := rfl
@[simp] theorem State.commitDataMemory_acc : (s.commitDataMemory).acc = s.acc := rfl
@[simp] theorem State.commitDataMemory_x : (s.commitDataMemory).x = s.x := rfl
@[simp] theorem State.commitDataMemory_st : (s.commitDataMemory).st = s.st := rfl
@[simp] theorem State.commitDataMemory_nextAcc : (s.commitDataMemory).nextAcc = s.nextAcc := rfl
@[simp] theorem State.commitDataMemory_nextX : (s.commitDataMemory).nextX = s.nextX := rfl
@[simp] theorem State.commitDataMemory_nextSt : (s.commitDataMemory).nextSt = s.nextSt := rfl
@[simp] theorem State.commitDataMemory_pc : (s.commitDataMemory).pc = s.pc := rfl
@[simp] theorem State.commitDataMemory_nextPc : (s.commitDataMemory).nextPc = s.nextPc := rfl
@[simp] theorem State.commitDataMemory_stallLatch : (s.commitDataMemory).stallLatch = s.stallLatch := rfl
@[simp] theorem State.commitDataMemory_imem : (s.commitDataMemory).imem = s.imem := rfl
@[simp] theorem State.commitDataMemory_imReq : (s.commitDataMemory).imReq = s.imReq := rfl
@[simp] theorem State.commitDataMemory_dmem : (s.commitDataMemory).dmem = commitStore s.dmem s.stagedStore := rfl
@[simp] theorem State.commitDataMemory_stagedStore : (s.commitDataMemory).stagedStore = none := rfl
@[simp] theorem State.commitDataMemory_dmReq : (s.commitDataMemory).dmReq = none := rfl
@[simp] theorem State.commitDataMemory_params : (s.commitDataMemory).params = s.params := rfl

@[simp] theorem State.beginCycle_cycleCount : (s.beginCycle).cycleCount = s.cycleCount := rfl
@[simp] theorem State.beginCycle_halted : (s.beginCycle).halted = s.halted := rfl
@[simp] theorem State.beginCycle_stalled : (s.beginCycle).stalled = false := rfl
@[simp] theorem State.beginCycle_fault : (s.beginCycle).fault = s.fault := rfl
@[simp] theorem State.beginCycle_acc : (s.beginCycle).acc = s.acc := rfl
@[simp] theorem State.beginCycle_x : (s.beginCycle).x = s.x := rfl
@[simp] theorem State.beginCycle_st : (s.beginCycle).st = s.st := rfl
@[simp] theorem State.beginCycle_nextAcc : (s.beginCycle).nextAcc = s.nextAcc := rfl
@[simp] theorem State.beginCycle_nextX : (s.beginCycle).nextX = s.nextX := rfl
@[simp] theorem State.beginCycle_nextSt : (s.beginCycle).nextSt = s.nextSt := rfl
@[simp] theorem State.beginCycle_pc : (s.beginCycle).pc = s.pc := rfl
@[simp] theorem State.beginCycle_nextPc : (s.beginCycle).nextPc = s.nextPc := rfl
@[simp] theorem State.beginCycle_stallLatch : (s.beginCycle).stallLatch = s.stallLatch := rfl
@[simp] theorem State.beginCycle_imem : (s.beginCycle).imem = s.imem := rfl
@[simp] theorem State.beginCycle_imReq : (s.beginCycle).imReq = s.imReq := rfl
@[simp] theorem State.beginCycle_dmem : (s.beginCycle).dmem = s.dmem := rfl
@[simp] theorem State.beginCycle_stagedStore : (s.beginCycle).stagedStore = s.stagedStore := rfl
@[simp] theorem State.beginCycle_dmReq : (s.beginCycle).dmReq = s.dmReq := rfl
@[simp] theorem State.beginCycle_params : (s.beginCycle).params = s.params := rfl

@[simp] theorem State.countCycle_cycleCount : (s.countCycle).cycleCount = s.cycleCount + 1 := rfl
@[simp] theorem State.countCycle_halted : (s.countCycle).halted = s.halted := rfl
@[simp] theorem State.countCycle_stalled : (s.countCycle).stalled = s.stalled := rfl
@[simp] theorem State.countCycle_fault : (s.countCycle).fault = s.fault := rfl
@[simp] theorem State.countCycle_acc : (s.countCycle).acc = s.acc := rfl
@[simp] theorem State.countCycle_x : (s.countCycle).x = s.x := rfl
@[simp] theorem State.countCycle_st : (s.countCycle).st = s.st := rfl
@[simp] theorem State.countCycle_nextAcc : (s.countCycle).nextAcc = s.nextAcc := rfl
@[simp] theorem State.countCycle_nextX : (s.countCycle).nextX = s.nextX := rfl
@[simp] theorem State.countCycle_nextSt : (s.countCycle).nextSt = s.nextSt := rfl
@[simp] theorem State.countCycle_pc : (s.countCycle).pc = s.pc := rfl
@[simp] theorem State.countCycle_nextPc : (s.countCycle).nextPc = s.nextPc := rfl
@[simp] theorem State.countCycle_stallLatch : (s.countCycle).stallLatch = s.stallLatch := rfl
@[simp] theorem State.countCycle_imem : (s.countCycle).imem = s.imem := rfl
@[simp] theorem State.countCycle_imReq : (s.countCycle).imReq = s.imReq := rfl
@[simp] theorem State.countCycle_dmem : (s.countCycle).dmem = s.dmem := rfl
@[simp] theorem State.countCycle_stagedStore : (s.countCycle).stagedStore = s.stagedStore := rfl
@[simp] theorem State.countCycle_dmReq : (s.countCycle).dmReq = s.dmReq := rfl
@[simp] theorem State.countCycle_params : (s.countCycle).params = s.params := rfl

@[simp] theorem State.stall_cycleCount : (s.stall).cycleCount = s.cycleCount := rfl
@[simp] theorem State.stall_halted : (s.stall).halted = s.halted := rfl
@[simp] theorem State.stall_stalled : (s.stall).stalled = true := rfl
@[simp] theorem State.stall_fault : (s.stall).fault = s.fault := rfl
@[simp] theorem State.stall_acc : (s.stall).acc = s.acc := rfl
@[simp] theorem State.stall_x : (s.stall).x = s.x := rfl
@[simp] theorem State.stall_st : (s.stall).st = s.st := rfl
@[simp] theorem State.stall_nextAcc : (s.stall).nextAcc = s.nextAcc := rfl
@[simp] theorem State.stall_nextX : (s.stall).nextX = s.nextX := rfl
@[simp] theorem State.stall_nextSt : (s.stall).nextSt = s.nextSt := rfl
@[simp] theorem State.stall_pc : (s.stall).pc = s.pc := rfl
@[simp] theorem State.stall_nextPc : (s.stall).nextPc = s.nextPc := rfl
@[simp] theorem State.stall_stallLatch : (s.stall).stallLatch = true := rfl
@[simp] theorem State.stall_imem : (s.stall).imem = s.imem := rfl
@[simp] theorem State.stall_imReq : (s.stall).imReq = s.imReq := rfl
@[simp] theorem State.stall_dmem : (s.stall).dmem = s.dmem := rfl
@[simp] theorem State.stall_stagedStore : (s.stall).stagedStore = s.stagedStore := rfl
@[simp] theorem State.stall_dmReq : (s.stall).dmReq = s.dmReq := rfl
@[simp] theorem State.stall_params : (s.stall).params = s.params := rfl

@[simp] theorem State.halt_cycleCount : (s.halt).cycleCount = s.cycleCount := rfl
@[simp] theorem State.halt_halted : (s.halt).halted = true := rfl
@[simp] theorem State.halt_stalled : (s.halt).stalled = s.stalled := rfl
@[simp] theorem State.halt_fault : (s.halt).fault = s.fault := rfl
@[simp] theorem State.halt_acc : (s.halt).acc = s.acc := rfl
@[simp] theorem State.halt_x : (s.halt).x = s.x := rfl
@[simp] theorem State.halt_st : (s.halt).st = s.st := rfl
@[simp] theorem State.halt_nextAcc : (s.halt).nextAcc = s.nextAcc := rfl
@[simp] theorem State.halt_nextX : (s.halt).nextX = s.nextX := rfl
@[simp] theorem State.halt_nextSt : (s.halt).nextSt = s.nextSt := rfl
@[simp] theorem State.halt_pc : (s.halt).pc = s.pc := rfl
@[simp] theorem State.halt_nextPc : (s.halt).nextPc = s.nextPc := rfl
@[simp] theorem State.halt_stallLatch : (s.halt).stallLatch = s.stallLatch := rfl
@[simp] theorem State.halt_imem : (s.halt).imem = s.imem := rfl
@[simp] theorem State.halt_imReq : (s.halt).imReq = s.imReq := rfl
@[simp] theorem State.halt_dmem : (s.halt).dmem = s.dmem := rfl
@[simp] theorem State.halt_stagedStore : (s.halt).stagedStore = s.stagedStore := rfl
@[simp] theorem State.halt_dmReq : (s.halt).dmReq = s.dmReq := rfl
@[simp] theorem State.halt_params : (s.halt).params = s.params := rfl

@[simp] theorem State.raise_cycleCount (k : FaultKind W) : (s.raise k).cycleCount = s.cycleCount := rfl
@[simp] theorem State.raise_halted (k : FaultKind W) : (s.raise k).halted = s.halted := rfl
@[simp] theorem State.raise_stalled (k : FaultKind W) : (s.raise k).stalled = s.stalled := rfl
@[simp] theorem State.raise_fault (k : FaultKind W) : (s.raise k).fault = some k := rfl
@[simp] theorem State.raise_acc (k : FaultKind W) : (s.raise k).acc = s.acc := rfl
@[simp] theorem State.raise_x (k : FaultKind W) : (s.raise k).x = s.x := rfl
@[simp] theorem State.raise_st (k : FaultKind W) : (s.raise k).st = s.st := rfl
@[simp] theorem State.raise_nextAcc (k : FaultKind W) : (s.raise k).nextAcc = s.nextAcc := rfl
@[simp] theorem State.raise_nextX (k : FaultKind W) : (s.raise k).nextX = s.nextX := rfl
@[simp] theorem State.raise_nextSt (k : FaultKind W) : (s.raise k).nextSt = s.nextSt := rfl
@[simp] theorem State.raise_pc (k : FaultKind W) : (s.raise k).pc = s.pc := rfl
@[simp] theorem State.raise_nextPc (k : FaultKind W) : (s.raise k).nextPc = s.nextPc := rfl
@[simp] theorem State.raise_stallLatch (k : FaultKind W) : (s.raise k).stallLatch = s.stallLatch := rfl
@[simp] theorem State.raise_imem (k : FaultKind W) : (s.raise k).imem = s.imem := rfl
@[simp] theorem State.raise_imReq (k : FaultKind W) : (s.raise k).imReq = s.imReq := rfl
@[simp] theorem State.raise_dmem (k : FaultKind W) : (s.raise k).dmem = s.dmem := rfl
@[simp] theorem State.raise_stagedStore (k : FaultKind W) : (s.raise k).stagedStore = s.stagedStore := rfl
@[simp] theorem State.raise_dmReq (k : FaultKind W) : (s.raise k).dmReq = s.dmReq := rfl
@[simp] theorem State.raise_params (k : FaultKind W) : (s.raise k).params = s.params := rfl

@[simp] theorem State.stageAlu_cycleCount (r : AluResult W.data) : (s.stageAlu r).cycleCount = s.cycleCount := rfl
@[simp] theorem State.stageAlu_halted (r : AluResult W.data) : (s.stageAlu r).halted = s.halted := rfl
@[simp] theorem State.stageAlu_stalled (r : AluResult W.data) : (s.stageAlu r).stalled = s.stalled := rfl
@[simp] theorem State.stageAlu_fault (r : AluResult W.data) : (s.stageAlu r).fault = s.fault := rfl
@[simp] theorem State.stageAlu_acc (r : AluResult W.data) : (s.stageAlu r).acc = s.acc := rfl
@[simp] theorem State.stageAlu_x (r : AluResult W.data) : (s.stageAlu r).x = s.x := rfl
@[simp] theorem State.stageAlu_st (r : AluResult W.data) : (s.stageAlu r).st = s.st := rfl
@[simp] theorem State.stageAlu_nextAcc (r : AluResult W.data) : (s.stageAlu r).nextAcc = some r.result := rfl
@[simp] theorem State.stageAlu_nextX (r : AluResult W.data) : (s.stageAlu r).nextX = s.nextX := rfl
@[simp] theorem State.stageAlu_nextSt (r : AluResult W.data) : (s.stageAlu r).nextSt = some ⟨r.v, r.c⟩ := rfl
@[simp] theorem State.stageAlu_pc (r : AluResult W.data) : (s.stageAlu r).pc = s.pc := rfl
@[simp] theorem State.stageAlu_nextPc (r : AluResult W.data) : (s.stageAlu r).nextPc = s.nextPc := rfl
@[simp] theorem State.stageAlu_stallLatch (r : AluResult W.data) : (s.stageAlu r).stallLatch = s.stallLatch := rfl
@[simp] theorem State.stageAlu_imem (r : AluResult W.data) : (s.stageAlu r).imem = s.imem := rfl
@[simp] theorem State.stageAlu_imReq (r : AluResult W.data) : (s.stageAlu r).imReq = s.imReq := rfl
@[simp] theorem State.stageAlu_dmem (r : AluResult W.data) : (s.stageAlu r).dmem = s.dmem := rfl
@[simp] theorem State.stageAlu_stagedStore (r : AluResult W.data) : (s.stageAlu r).stagedStore = s.stagedStore := rfl
@[simp] theorem State.stageAlu_dmReq (r : AluResult W.data) : (s.stageAlu r).dmReq = s.dmReq := rfl
@[simp] theorem State.stageAlu_params (r : AluResult W.data) : (s.stageAlu r).params = s.params := rfl

@[simp] theorem State.commitPhase_cycleCount : (s.commitPhase).cycleCount = s.cycleCount := rfl
@[simp] theorem State.commitPhase_halted : (s.commitPhase).halted = s.halted := rfl
@[simp] theorem State.commitPhase_stalled : (s.commitPhase).stalled = s.stalled := rfl
@[simp] theorem State.commitPhase_fault : (s.commitPhase).fault = s.fault := rfl
@[simp] theorem State.commitPhase_acc : (s.commitPhase).acc = s.nextAcc.getD s.acc := rfl
@[simp] theorem State.commitPhase_x : (s.commitPhase).x = commitRegs s.x s.nextX := rfl
@[simp] theorem State.commitPhase_st : (s.commitPhase).st = s.nextSt.getD s.st := rfl
@[simp] theorem State.commitPhase_nextAcc : (s.commitPhase).nextAcc = none := rfl
@[simp] theorem State.commitPhase_nextX : (s.commitPhase).nextX = Regs.fill none := rfl
@[simp] theorem State.commitPhase_nextSt : (s.commitPhase).nextSt = none := rfl
@[simp] theorem State.commitPhase_pc : (s.commitPhase).pc = s.nextPc.getD s.pc := rfl
@[simp] theorem State.commitPhase_nextPc : (s.commitPhase).nextPc = none := rfl
@[simp] theorem State.commitPhase_stallLatch : (s.commitPhase).stallLatch = s.stallLatch := rfl
@[simp] theorem State.commitPhase_imem : (s.commitPhase).imem = s.imem := rfl
@[simp] theorem State.commitPhase_imReq : (s.commitPhase).imReq = none := rfl
@[simp] theorem State.commitPhase_dmem : (s.commitPhase).dmem = commitStore s.dmem s.stagedStore := rfl
@[simp] theorem State.commitPhase_stagedStore : (s.commitPhase).stagedStore = none := rfl
@[simp] theorem State.commitPhase_dmReq : (s.commitPhase).dmReq = none := rfl
@[simp] theorem State.commitPhase_params : (s.commitPhase).params = s.params := rfl

/-- The register `dmar` is a view of the general registers and of nothing else. -/
theorem State.dmar_of_x {s t : State W} (hx : t.x = s.x) (hp : t.params = s.params) : t.dmar = s.dmar := by
  simp [State.dmar, hx, hp]

/-- The register `imar` is a view of the general registers and of nothing else. -/
theorem State.imar_of_x {s t : State W} (hx : t.x = s.x) (hp : t.params = s.params) : t.imar = s.imar := by
  simp [State.imar, hx, hp]

end Sys2Proof.Machine
end

