-- ==== Sys2Proof/Laws/Memory.lean ====
section
/-!
SUPPORT. The memory laws: a read after a write, the canonical form kept by every write, and that canonical memories that read
alike are equal.
-/

namespace Sys2Proof.Machine

variable {w n : Nat}

/-- A data memory is a list of the host's cells. -/
theorem Memory.cells : Memory 8 = List Host.Cell := rfl

@[simp] theorem Memory.readKey_nil (a : Nat) : Memory.readKey ([] : Memory w) a = 0 := rfl

@[simp] theorem Memory.read_nil (a : BitVec n) : Memory.read ([] : Memory w) a = 0 := rfl

/-- A canonical memory lists nothing below its lower bound. -/
theorem Memory.readKey_below {lo : Nat} {m : Memory w} (h : Memory.wfFrom n lo m = true) {a : Nat} (ha : a < lo) :
    Memory.readKey m a = 0 := by
  induction m generalizing lo with
  | nil => rfl
  | cons c rest ih =>
    obtain ⟨b, v⟩ := c
    simp only [Memory.wfFrom, Bool.and_eq_true, decide_eq_true_eq] at h
    rw [Memory.readKey, if_neg (by omega)]
    exact ih h.2 (by omega)

/-- A lower bound may be lowered. -/
theorem Memory.wfFrom_mono {lo hi : Nat} {m : Memory w} (h : Memory.wfFrom n hi m = true) (hlo : lo ≤ hi) :
    Memory.wfFrom n lo m = true := by
  cases m with
  | nil => rfl
  | cons c rest =>
    simp only [Memory.wfFrom, Bool.and_eq_true, decide_eq_true_eq] at h ⊢
    exact ⟨⟨⟨by omega, h.1.1.2⟩, h.1.2⟩, h.2⟩

theorem Memory.wfFrom_insertKey {lo a : Nat} {m : Memory w} {v : BitVec w} (h : Memory.wfFrom n lo m = true) (hlo : lo ≤ a)
    (ha : a < 2 ^ n) (hv : v ≠ Memory.unlisted w) : Memory.wfFrom n lo (Memory.insertKey m a v) = true := by
  induction m generalizing lo with
  | nil => simp [Memory.insertKey, Memory.wfFrom, hv, hlo]; omega
  | cons c rest ih =>
    obtain ⟨b, u⟩ := c
    simp only [Memory.wfFrom, Bool.and_eq_true, decide_eq_true_eq] at h
    simp only [Memory.insertKey]
    split
    · simp only [Memory.wfFrom, Bool.and_eq_true, decide_eq_true_eq]
      exact ⟨⟨⟨hlo, ha⟩, hv⟩, ⟨⟨by omega, h.1.1.2⟩, h.1.2⟩, h.2⟩
    · split
      · subst a
        simp only [Memory.wfFrom, Bool.and_eq_true, decide_eq_true_eq]
        exact ⟨⟨h.1.1, hv⟩, h.2⟩
      · simp only [Memory.wfFrom, Bool.and_eq_true, decide_eq_true_eq]
        exact ⟨h.1, ih h.2 (by omega)⟩

theorem Memory.wfFrom_eraseKey {lo a : Nat} {m : Memory w} (h : Memory.wfFrom n lo m = true) :
    Memory.wfFrom n lo (Memory.eraseKey m a) = true := by
  induction m generalizing lo with
  | nil => rfl
  | cons c rest ih =>
    obtain ⟨b, u⟩ := c
    simp only [Memory.wfFrom, Bool.and_eq_true, decide_eq_true_eq] at h
    simp only [Memory.eraseKey]
    split
    · exact Memory.wfFrom_mono h.2 (by omega)
    · simp only [Memory.wfFrom, Bool.and_eq_true, decide_eq_true_eq]
      exact ⟨h.1, ih h.2⟩

theorem Memory.readKey_insertKey {lo a : Nat} {m : Memory w} {v : BitVec w} (h : Memory.wfFrom n lo m = true) (b : Nat) :
    Memory.readKey (Memory.insertKey m a v) b = if b = a then v else Memory.readKey m b := by
  induction m generalizing lo with
  | nil => simp only [Memory.insertKey, Memory.readKey]; split <;> split <;> simp_all
  | cons c rest ih =>
    obtain ⟨k, u⟩ := c
    simp only [Memory.wfFrom, Bool.and_eq_true, decide_eq_true_eq] at h
    simp only [Memory.insertKey]
    split
    · simp only [Memory.readKey, eq_comm (a := a)]
    · split
      · subst a; simp only [Memory.readKey, eq_comm (a := k)]; split <;> rfl
      · simp only [Memory.readKey, ih h.2]
        split <;> split <;> first | rfl | omega

theorem Memory.readKey_eraseKey {lo a : Nat} {m : Memory w} (h : Memory.wfFrom n lo m = true) (b : Nat) :
    Memory.readKey (Memory.eraseKey m a) b = if b = a then 0 else Memory.readKey m b := by
  induction m generalizing lo with
  | nil => simp [Memory.eraseKey]
  | cons c rest ih =>
    obtain ⟨k, u⟩ := c
    simp only [Memory.wfFrom, Bool.and_eq_true, decide_eq_true_eq] at h
    simp only [Memory.eraseKey]
    split
    · subst a
      by_cases hb : b = k
      · subst b; rw [if_pos rfl]; exact Memory.readKey_below h.2 (by omega)
      · rw [if_neg hb, Memory.readKey, if_neg (Ne.symm hb)]
    · simp only [Memory.readKey, ih h.2]
      split <;> split <;> first | rfl | omega

/-- A write keeps the canonical form. -/
theorem Memory.wf_write {m : Memory w} (h : Memory.wf m n = true) (a : BitVec n) (v : BitVec w) :
    Memory.wf (Memory.write m a v) n = true := by
  unfold Memory.write
  split
  · exact Memory.wfFrom_eraseKey h
  · exact Memory.wfFrom_insertKey h (Nat.zero_le _) a.isLt ‹_›

/-- A read after a write: the value written at its address, the old word everywhere else. -/
theorem Memory.read_write {m : Memory w} (h : Memory.wf m n = true) (a b : BitVec n) (v : BitVec w) :
    Memory.read (Memory.write m a v) b = if b = a then v else Memory.read m b := by
  unfold Memory.read Memory.write
  split
  · rw [Memory.readKey_eraseKey h]; subst v; simp only [BitVec.toNat_inj]; rfl
  · rw [Memory.readKey_insertKey h]; simp only [BitVec.toNat_inj]

/-- Canonical memories that read alike at every key are the same list. -/
theorem Memory.eq_of_readKey {lo : Nat} {m k : Memory w} (hm : Memory.wfFrom n lo m = true) (hk : Memory.wfFrom n lo k = true)
    (h : ∀ a, lo ≤ a → Memory.readKey m a = Memory.readKey k a) : m = k := by
  induction m generalizing lo k with
  | nil =>
    cases k with
    | nil => rfl
    | cons c rest =>
      obtain ⟨b, v⟩ := c
      simp only [Memory.wfFrom, Bool.and_eq_true, decide_eq_true_eq] at hk
      exact absurd (by simpa [Memory.readKey] using (h b hk.1.1.1).symm) hk.1.2
  | cons c rest ih =>
    obtain ⟨b, v⟩ := c
    simp only [Memory.wfFrom, Bool.and_eq_true, decide_eq_true_eq] at hm
    cases k with
    | nil => exact absurd (by simpa [Memory.readKey] using h b hm.1.1.1) hm.1.2
    | cons d tail =>
      obtain ⟨e, u⟩ := d
      simp only [Memory.wfFrom, Bool.and_eq_true, decide_eq_true_eq] at hk
      have hbe : b = e := by
        rcases Nat.lt_trichotomy b e with hlt | heq | hgt
        · have h1 := h b hm.1.1.1
          have h2 := Memory.readKey_below hk.2 (show b < e + 1 by omega)
          rw [Memory.readKey, Memory.readKey, if_pos rfl, if_neg (by omega), h2] at h1
          exact absurd h1 hm.1.2
        · exact heq
        · have h1 := h e hk.1.1.1
          have h2 := Memory.readKey_below hm.2 (show e < b + 1 by omega)
          rw [Memory.readKey, Memory.readKey, if_pos rfl, if_neg (by omega), h2] at h1
          exact absurd h1.symm hk.1.2
      subst e
      have hvu : v = u := by simpa [Memory.readKey] using h b hm.1.1.1
      subst u
      rw [ih hm.2 hk.2 fun a ha => by
        have := h a (by omega)
        rwa [Memory.readKey, Memory.readKey, if_neg (by omega), if_neg (by omega)] at this]

/-- A canonical memory lists nothing at or above 2^n. -/
theorem Memory.readKey_above {lo : Nat} {m : Memory w} (h : Memory.wfFrom n lo m = true) {a : Nat} (ha : 2 ^ n ≤ a) :
    Memory.readKey m a = 0 := by
  induction m generalizing lo with
  | nil => rfl
  | cons c rest ih =>
    obtain ⟨b, v⟩ := c
    simp only [Memory.wfFrom, Bool.and_eq_true, decide_eq_true_eq] at h
    rw [Memory.readKey, if_neg (by omega)]
    exact ih h.2

/-- The memories of a fresh reference machine are canonical. -/
theorem State.reset_wf : Memory.wf State.reset.imem = true ∧ Memory.wf State.reset.dmem = true := ⟨rfl, rfl⟩

/-- Committing a staged store keeps the canonical form. -/
theorem commitStore_wf {m : Memory w} (h : Memory.wf m n = true) (staged : Option (BitVec n × BitVec w)) :
    Memory.wf (commitStore m staged) n = true := by
  cases staged with
  | none => exact h
  | some p => exact Memory.wf_write h p.1 p.2

/-- Installing a program keeps the canonical form. -/
theorem writeWords_wf {m : Memory w} (h : Memory.wf m n = true) (a : BitVec n) (ws : List (BitVec w)) :
    Memory.wf (writeWords m a ws) n = true := by
  induction ws generalizing m a with
  | nil => exact h
  | cons v rest ih => exact ih (Memory.wf_write h a v) _

end Sys2Proof.Machine
end

