-- ==== Sys2Proof/Laws/PerInstr.lean ====
section
/-!
SUPPORT. The statement about each instruction as syntax: its word carries its row's match bits under its row's mask, whatever
its operand (30_encoding.md R94, R96; decision D5, assumption log 5). One lemma per constructor.
-/

namespace Sys2Proof.Laws.TableRow

/-- The encoding of `i`, masked as its row of the opcode table says, is the row's match word. -/
def Statement (i : Instr) : Prop := encode i &&& rowMask i = rowMatch i

/-- Masking the argument of a built word away leaves opcode and sub-field. -/
theorem mask_arg (op sub : BitVec 4) (arg : BitVec 8) : wordOf op sub arg &&& 0xFF00 = wordOf op sub 0 := by
  have h := BitVec.and_append (x₁ := op ++ sub) (y₁ := arg) (x₂ := (0xFF : BitVec 8)) (y₂ := (0 : BitVec 8))
  rw [show arg &&& (0 : BitVec 8) = 0 from BitVec.and_zero, show (op ++ sub) &&& (0xFF : BitVec 8) = op ++ sub from BitVec.and_allOnes] at h
  exact h

/-- A register argument has a zero upper half, so a register form's mask leaves opcode and sub-field. -/
theorem mask_reg (op sub : BitVec 4) (idx : RegIdx) :
    wordOf op sub (regArg idx) &&& 0xFFF0 = wordOf op sub 0 := by
  have h := BitVec.and_append (x₁ := op ++ sub) (y₁ := regArg idx) (x₂ := (0xFF : BitVec 8)) (y₂ := (0xF0 : BitVec 8))
  have k := BitVec.and_append (x₁ := (0 : BitVec 4)) (y₁ := idx) (x₂ := (0xF : BitVec 4)) (y₂ := (0 : BitVec 4))
  rw [show idx &&& (0 : BitVec 4) = 0 from BitVec.and_zero, show (0 : BitVec 4) &&& 0xF = 0 from rfl] at k
  rw [show regArg idx &&& (0xF0 : BitVec 8) = 0 from k,
    show (op ++ sub) &&& (0xFF : BitVec 8) = op ++ sub from BitVec.and_allOnes] at h
  exact h

theorem addi (arg : BitVec 8) : Statement (.addi arg) := (mask_arg _ _ _).trans rfl
theorem subi (arg : BitVec 8) : Statement (.subi arg) := (mask_arg _ _ _).trans rfl
theorem andi (arg : BitVec 8) : Statement (.andi arg) := (mask_arg _ _ _).trans rfl
theorem ori (arg : BitVec 8) : Statement (.ori arg) := (mask_arg _ _ _).trans rfl
theorem xori (arg : BitVec 8) : Statement (.xori arg) := (mask_arg _ _ _).trans rfl
theorem add (idx : RegIdx) : Statement (.add idx) := (mask_reg _ _ _).trans rfl
theorem sub (idx : RegIdx) : Statement (.sub idx) := (mask_reg _ _ _).trans rfl
theorem and (idx : RegIdx) : Statement (.and idx) := (mask_reg _ _ _).trans rfl
theorem or (idx : RegIdx) : Statement (.or idx) := (mask_reg _ _ _).trans rfl
theorem xor (idx : RegIdx) : Statement (.xor idx) := (mask_reg _ _ _).trans rfl
theorem set (arg : BitVec 8) : Statement (.set arg) := (mask_arg _ _ _).trans rfl
theorem get (idx : RegIdx) : Statement (.get idx) := (mask_reg _ _ _).trans rfl
theorem put (idx : RegIdx) : Statement (.put idx) := (mask_reg _ _ _).trans rfl
theorem load : Statement .load := rfl
theorem store : Statement .store := rfl
theorem bcc (arg : BitVec 8) : Statement (.bcc arg) := (mask_arg _ _ _).trans rfl
theorem bcs (arg : BitVec 8) : Statement (.bcs arg) := (mask_arg _ _ _).trans rfl
theorem bvc (arg : BitVec 8) : Statement (.bvc arg) := (mask_arg _ _ _).trans rfl
theorem bvs (arg : BitVec 8) : Statement (.bvs arg) := (mask_arg _ _ _).trans rfl
theorem jmpi (arg : BitVec 8) : Statement (.jmpi arg) := (mask_arg _ _ _).trans rfl
theorem jmpr : Statement .jmpr := rfl
theorem jmpa : Statement .jmpa := rfl
theorem halt : Statement .halt := rfl

end Sys2Proof.Laws.TableRow
end

