-- ==== Sys2Proof/Laws/Ports.lean ====
section
/-!
SUPPORT. What each port does in one cycle, said once: the request followed by its one poll (20_memory.md R70 to R72), and the
Fetch stage. Later proofs cite these instead of unfolding a request or a poll.
-/

namespace Sys2Proof.Machine

variable {W : Widths} {s : State W}

/-- The fetch request of a cycle leaves an outstanding request for `pc` with the waits still to give. -/
theorem State.requestFetch_pc (s : State W) :
    s.beginCycle.requestFetch s.pc = { s with stalled := false, imReq := some ⟨s.pc, s.fetchWaits⟩ } := by
  obtain ⟨_, _, _, _, _, _, _, _, _, _, _, _, _, _, r, _, _, _, _⟩ := s
  rcases r with _ | ⟨a, n⟩
  · rfl
  · simp only [State.requestFetch, State.beginCycle, State.fetchWaits]
    split
    · subst a; rfl
    · rfl

/-- The Fetch stage with no wait left: the word at `pc`, the latch cleared. -/
theorem State.fetchStage_ready (h : s.fetchWaits = 0) :
    s.fetchStage =
      (some s.wordAtPc, { s with stalled := false, stallLatch := false, imReq := some ⟨s.pc, 0⟩ }) := by
  simp [State.fetchStage, State.requestFetch_pc, h, State.pollFetch, State.setStall, State.wordAtPc]

/-- The Fetch stage with waits left: no word, one wait less. -/
theorem State.fetchStage_waiting {n : Nat} (h : s.fetchWaits = n + 1) :
    s.fetchStage = (none, { s with stalled := false, imReq := some ⟨s.pc, n⟩ }) := by
  simp [State.fetchStage, State.requestFetch_pc, h, State.pollFetch]

/-- The load request of a cycle leaves an outstanding load at `dmar` with the waits still to give. -/
theorem State.requestLoad_dmar (s : State W) :
    s.requestLoad s.dmar = { s with dmReq := some (.load s.dmar s.loadWaits) } := by
  unfold State.requestLoad State.loadWaits
  rcases h : s.dmReq with _ | ⟨a, n⟩ | ⟨a, v, n⟩
  · rfl
  · dsimp only
    split
    · subst a; rw [← h]
    · rfl
  · rfl

/-- The load port with no wait left: the committed word at `dmar`. -/
theorem State.loadPort_ready (h : s.loadWaits = 0) :
    (s.requestLoad s.dmar).pollLoad = (some (Memory.read s.dmem s.dmar), { s with dmReq := some (.load s.dmar 0) }) := by
  simp [State.requestLoad_dmar, h, State.pollLoad]

/-- The load port with waits left: no word, one wait less. -/
theorem State.loadPort_waiting {n : Nat} (h : s.loadWaits = n + 1) :
    (s.requestLoad s.dmar).pollLoad = (none, { s with dmReq := some (.load s.dmar n) }) := by
  simp [State.requestLoad_dmar, h, State.pollLoad]

/-- The store request of a cycle leaves an outstanding store of `acc` at `dmar` with the waits still to give. -/
theorem State.requestStore_dmar (s : State W) :
    s.requestStore s.dmar s.acc = { s with dmReq := some (.store s.dmar s.acc s.storeWaits) } := by
  unfold State.requestStore State.storeWaits
  rcases h : s.dmReq with _ | ⟨a, n⟩ | ⟨a, v, n⟩
  · rfl
  · rfl
  · dsimp only
    split
    · rename_i hav
      obtain ⟨rfl, rfl⟩ := hav
      rw [← h]
    · rfl

/-- The store port with no wait left: the write is staged. -/
theorem State.storePort_ready (h : s.storeWaits = 0) :
    (s.requestStore s.dmar s.acc).pollStore =
      (true, { s with dmReq := some (.store s.dmar s.acc 0), stagedStore := some (s.dmar, s.acc) }) := by
  simp [State.requestStore_dmar, h, State.pollStore]

/-- The store port with waits left: nothing staged, one wait less. -/
theorem State.storePort_waiting {n : Nat} (h : s.storeWaits = n + 1) :
    (s.requestStore s.dmar s.acc).pollStore = (false, { s with dmReq := some (.store s.dmar s.acc n) }) := by
  simp [State.requestStore_dmar, h, State.pollStore]

end Sys2Proof.Machine
end

