-- ==== Sys2Proof/Laws/Regs.lean ====
section
/-!
SUPPORT. The register-file laws: a place read after a write, and what a commit makes of the staged slots.
-/

namespace Sys2Proof.Machine

variable {α : Type} {n : Nat}

@[simp] theorem Regs.read_fill (v : α) (j : BitVec n) : Regs.read (Regs.fill v) j = v := by
  simp [Regs.read, Regs.fill]

/-- A place after a write: the value at its index, the old value everywhere else. -/
theorem Regs.read_write (r : Regs α n) (i j : BitVec n) (v : α) :
    Regs.read (Regs.write r i v) j = if j = i then v else Regs.read r j := by
  simp only [Regs.read, Regs.write, Vector.getElem_set, BitVec.toNat_inj, eq_comm (a := i)]

/-- Register arrays that read alike are equal. -/
theorem Regs.ext {r t : Regs α n} (h : ∀ i, Regs.read r i = Regs.read t i) : r = t := by
  apply Vector.ext
  intro i hi
  have := h (BitVec.ofNat n i)
  simpa only [Regs.read, BitVec.toNat_ofNat, Nat.mod_eq_of_lt (show i < 2 ^ n from hi)] using this

/-- A register after a commit: its staged value where there is one. -/
@[simp] theorem Regs.read_commitRegs (x : Regs α n) (next : Regs (Option α) n) (i : BitVec n) :
    Regs.read (commitRegs x next) i = (Regs.read next i).getD (Regs.read x i) := by
  simp [Regs.read, commitRegs]

/-- A commit with nothing staged changes no register. -/
@[simp] theorem commitRegs_empty (x : Regs α n) : commitRegs x (Regs.fill none) = x :=
  Regs.ext fun i => by simp

/-- A commit with one staged register changes that register. -/
theorem commitRegs_write (x : Regs α n) (i : BitVec n) (v : α) :
    commitRegs x (Regs.write (Regs.fill none) i (some v)) = Regs.write x i v :=
  Regs.ext fun j => by simp only [Regs.read_commitRegs, Regs.read_write]; split <;> simp

/-- Where every index names a register, as in the reference instance, a register read answers. -/
theorem State.register_all {W : Widths} {s : State W} (h : s.params.nreg = 2 ^ W.idx) (i : W.Idx) :
    s.register i = some (Regs.read s.x i) := by
  rw [State.register, if_pos (by rw [h]; exact i.isLt)]

end Sys2Proof.Machine
end

