-- ==== Sys2Proof/Laws/Step.lean ====
section
/-!
SUPPORT. What a step can do, said once, and what each shared operation of the meanings answers from a state whose staged slots
are empty.
-/

namespace Sys2Proof.Machine

variable {s t : State}

/-- An unbounded counter has room for every cycle. -/
@[simp] theorem State.roomFor_unbounded {W : Widths} {s : State W} (h : s.params.cycleWidth = none) (n : Nat) :
    s.roomFor n = true := by
  simp [State.roomFor, h]

/-- Room for more cycles is room for fewer. -/
theorem State.roomFor_mono {W : Widths} {s : State W} {m n : Nat} (h : s.roomFor n = true) (hmn : m ≤ n) :
    s.roomFor m = true := by
  cases hw : s.params.cycleWidth with
  | none => exact State.roomFor_unbounded hw m
  | some w =>
    simp only [State.roomFor, hw, decide_eq_true_eq] at h ⊢
    omega

/-- After `k` counted cycles there is room for `k` fewer. -/
theorem State.roomFor_after {W : Widths} {s t : State W} {k : Nat} (hp : t.params = s.params)
    (hc : t.cycleCount = s.cycleCount + k) (n : Nat) : t.roomFor n = s.roomFor (k + n) := by
  unfold State.roomFor
  rw [hp, hc]
  split <;> simp [Nat.add_assoc]

/-- What `stopped` and `roomFor` say together: a cycle may begin. -/
theorem State.canRun_iff : s.CanRun ↔ s.stopped = none ∧ s.roomFor 1 = true := by
  unfold State.stopped State.CanRun
  cases s.fault <;> cases s.halted <;> simp

/-- A step of a machine that can run: the Fetch stage, then Decode. -/
theorem step_of_canRun (h : s.CanRun) :
    step s = match s.fetchStage with
      | (none, s') => endStalled s'
      | (some w, s') =>
        match decode w with
        | .instr i => exec i s'
        | .reserved _ => endReserved w s' := by
  obtain ⟨hs, hr⟩ := State.canRun_iff.mp h
  simp only [step, hs, hr]; rfl

/-- A step of a machine that can run, with waits left on its fetch. -/
theorem step_waiting (h : s.CanRun) {n : Nat} (hw : s.fetchWaits = n + 1) :
    step s = .next { s.stalledOnce with imReq := some ⟨s.pc, n⟩ } := by
  rw [step_of_canRun h, State.fetchStage_waiting hw]; rfl

/-- A step of a machine that can run, with a ready fetch: the decoded instruction, or the fault of a reserved word. -/
theorem step_ready (h : s.CanRun) (hw : s.fetchWaits = 0) :
    step s = match decode s.wordAtPc with
      | .instr i => exec i s.fetched
      | .reserved _ => .next (s.fetched.raise (.reservedEncoding s.wordAtPc s.pc)) := by
  rw [step_of_canRun h, State.fetchStage_ready hw]; rfl

/-- Everything a step that answers a next state can have done. -/
theorem step_cases (h : step s = .next t) :
    s.CanRun ∧
      ((∃ n, s.fetchWaits = n + 1 ∧ t = { s.stalledOnce with imReq := some ⟨s.pc, n⟩ }) ∨
        (s.fetchWaits = 0 ∧ ∃ why, decode s.wordAtPc = .reserved why ∧
          t = s.fetched.raise (.reservedEncoding s.wordAtPc s.pc)) ∨
        (s.fetchWaits = 0 ∧ ∃ i, decode s.wordAtPc = .instr i ∧ exec i s.fetched = .next t)) := by
  have hrun : s.CanRun := by
    rw [State.canRun_iff]
    cases hs : s.stopped with
    | some f => simp [step, hs] at h
    | none => cases hr : s.roomFor 1 <;> simp_all [step]
  refine ⟨hrun, ?_⟩
  cases hw : s.fetchWaits with
  | succ n =>
    rw [step_waiting hrun hw] at h
    exact .inl ⟨n, rfl, (Host.Outcome.next.inj h).symm⟩
  | zero =>
    rw [step_ready hrun hw] at h
    cases hd : decode s.wordAtPc with
    | reserved why =>
      rw [hd] at h
      exact .inr (.inl ⟨rfl, why, rfl, (Host.Outcome.next.inj h).symm⟩)
    | instr i =>
      rw [hd] at h
      exact .inr (.inr ⟨rfl, i, rfl, h⟩)

/-- Counting and committing staged slots that hold at most an accumulator, a status and a pc: those are committed, nothing
else changes but the count and the ports. -/
theorem State.commitPhase_of_noRegister {W : Widths} {s : State W} (hx : s.nextX = Regs.fill none)
    (hd : s.stagedStore = none) :
    s.countCycle.commitPhase = { s.ended with
      acc := s.nextAcc.getD s.acc, st := s.nextSt.getD s.st, pc := s.nextPc.getD s.pc
      nextAcc := none, nextSt := none, nextPc := none } := by
  obtain ⟨⟩ := s
  simp only at hx hd
  subst hx hd
  simp [State.commitPhase, State.commitRegisterFile, State.commitInstrMemory, State.commitDataMemory,
    State.commitProgramCounter, State.countCycle, State.ended, commitStore]

/-- An ALU result staged in empty slots, counted and committed. -/
theorem State.commit_stageAlu {W : Widths} {s : State W} (hq : s.Quiet) (r : AluResult W.data) :
    (s.stageAlu r).increment.countCycle.commitPhase =
      { s.ended with acc := r.result, st := ⟨r.v, r.c⟩, pc := s.pc + 1 } := by
  obtain ⟨ha, hst, hx, hp, hd⟩ := hq
  rw [State.commitPhase_of_noRegister (by simpa using hx) (by simpa using hd)]
  obtain ⟨⟩ := s; simp_all [State.ended, State.stageAlu, State.increment, State.setNextAcc, State.setNextStatus]

/-- A branch's pc staged in empty slots, counted and committed. -/
theorem State.commit_conditionallyBranch {W : Widths} {s : State W} (hq : s.Quiet) (taken : Bool) (target : W.Addr) :
    (s.conditionallyBranch taken target).countCycle.commitPhase =
      { s.ended with pc := if taken then target else s.pc + 1 } := by
  obtain ⟨ha, hst, hx, hp, hd⟩ := hq
  rw [State.commitPhase_of_noRegister (by simpa using hx) (by simpa using hd)]
  obtain ⟨⟩ := s; simp_all [State.ended, State.conditionallyBranch]

/-- A completed cycle from staged slots that hold no register and no store. -/
theorem endCompleted_of_noRegister (hx : s.nextX = Regs.fill none) (hd : s.stagedStore = none) :
    endCompleted s = .next { s.ended with
      acc := s.nextAcc.getD s.acc, st := s.nextSt.getD s.st, pc := s.nextPc.getD s.pc
      nextAcc := none, nextSt := none, nextPc := none } := by
  rw [endCompleted, State.commitPhase_of_noRegister hx hd]

/-- An ALU op from empty staged slots, operand B present. -/
theorem aluOp_quiet (hq : s.Quiet) {f : Data → Data → AluResult} {b : OperandB} {v : Data} (hb : s.operandB b = some v) :
    aluOp f b s = .next { s.ended with
      acc := (f s.acc v).result, st := ⟨(f s.acc v).v, (f s.acc v).c⟩, pc := s.pc + 1 } := by
  cases b with
  | immediate imm => cases hb; simp only [aluOp, endCompleted, State.commit_stageAlu hq]
  | register idx =>
    have hr : s.register idx = some v := hb
    simp only [aluOp, hr, endCompleted, State.commit_stageAlu hq]

/-- A branch from empty staged slots. -/
theorem branchOp_quiet (hq : s.Quiet) (cond : Status → Bool) (target : Addr) :
    branchOp cond target s = .next { s.ended with pc := if cond s.st then target else s.pc + 1 } := by
  rw [branchOp, endCompleted, State.commit_conditionallyBranch hq]

end Sys2Proof.Machine
end

