-- ==== Sys2Proof/Laws/Sequencer.lean ====
section
/-!
SUPPORT. What one cycle of the stage sequencer does in its first two stages, when a run may end before a cycle, and that steps
compose. Later proofs cite these instead of unfolding `cycle`, `iterate`, `endBeforeCycle` or `steps`.
-/

namespace Sys2Proof.Machine

variable {W : Widths} {c : Collaborators W} {s : State W}

/-- A cycle with waits left on its fetch stalls. -/
theorem cycle_waiting {n : Nat} (h : s.fetchWaits = n + 1) :
    cycle c s = (.stalled, State.stall { s with stalled := false, imReq := some ⟨s.pc, n⟩ }) := by
  simp only [cycle, State.fetchStage_waiting h]

/-- An iteration with waits left on its fetch: one wait less, latch and flag set, counted. -/
theorem iterate_waiting {n : Nat} (h : s.fetchWaits = n + 1) :
    (iterate c s).2 = { s.stalledOnce with imReq := some ⟨s.pc, n⟩ } := by
  simp only [iterate, cycle_waiting h]; rfl

/-- A cycle with a ready fetch: Decode's fault or halt, or the three stages after it. -/
theorem cycle_ready (h : s.fetchWaits = 0) :
    cycle c s = match c.decode s.wordAtPc with
      | .reserved =>
        (.fault (.reservedEncoding s.wordAtPc s.pc), s.fetched.raise (.reservedEncoding s.wordAtPc s.pc))
      | .record .halt => (.halted, s.fetched.halt)
      | d => afterDecode c d s.fetched := by
  simp only [cycle, State.fetchStage_ready h]; rfl

/-- A run takes another cycle exactly from a machine that can run and has not reached the bound. -/
theorem endBeforeCycle_eq_none {bound : Option Nat} :
    endBeforeCycle bound s = none ↔ s.CanRun ∧ boundReached bound s = false := by
  unfold endBeforeCycle State.CanRun
  cases s.fault <;> cases s.halted <;> cases boundReached bound s <;> simp

/-- Everything that can end a run before another cycle. -/
theorem endBeforeCycle_cases {bound : Option Nat} {e : RunEnd W} (h : endBeforeCycle bound s = some e) :
    (∃ k, s.fault = some k ∧ e = .faulted k) ∨
    (s.fault = none ∧ s.halted = true ∧ e = .halted s.snapshot) ∨
    (s.fault = none ∧ s.halted = false ∧ boundReached bound s = true ∧ e = .timedOut s.snapshot) ∨
    (s.fault = none ∧ s.halted = false ∧ boundReached bound s = false ∧ s.roomFor 1 = false ∧ e = .counterFull) := by
  unfold endBeforeCycle at h
  cases hf : s.fault <;> cases hh : s.halted <;> cases hb : boundReached bound s <;> cases hr : s.roomFor 1 <;>
    simp_all

/-- Steps compose. -/
theorem steps_add (a b : Nat) (s : State) :
    steps (a + b) s = match steps a s with
      | .next t => steps b t
      | .fault f => .fault f
      | .refused r => .refused r := by
  induction a generalizing s with
  | zero => simp [steps]
  | succ a ih =>
    rw [Nat.add_right_comm]
    simp only [steps]
    cases step s <;> simp [ih]

end Sys2Proof.Machine
end

