-- ==== Sys2Proof/Tests/Slice0.lean ====
section
/-!
SUPPORT. Tests: each constructor's word written out from 30_encoding.md, one or two vectors of 95_test_vectors.md an
instruction, the ill-formed terms WellFormed refuses, and for each statement with hypotheses a witness that meets them, at the
boundary of each of its clauses. Every expected value is the spec's, never the model's own answer.
-/

namespace Sys2Proof.Tests

open Sys2Proof.Machine Sys2Proof.Claims

/-- One step of `s` with the word `w` at its pc answers a next state that passes the check. -/
def runs (w : Nat) (s : State) (check : State → Bool) : Bool :=
  match step (s.withFetchWord 16 w) with
  | .next t => check t
  | .fault _ => false
  | .refused _ => false

/-- `k` steps from `s` end in a state that passes the check. -/
def after (k : Nat) (s : State) (check : State → Bool) : Bool :=
  match steps k s with
  | .next t => check t
  | .fault _ => false
  | .refused _ => false

/-- The reset state with the given words from address 0 on. -/
def loaded (ws : List InstrWord) : State := { State.reset with imem := writeWords [] (0 : Addr) ws }

/-- The reset state with one register set. -/
def withX (idx : RegIdx) (v : Data) : State := { State.reset with x := Regs.write State.reset.x idx v }

/-- The reset state with `n` waits at address 0 of all three wait tables. -/
def waiting (n : Nat) : State :=
  { State.reset with
    params := { Params.reference with imemWait := [(0, n)], dmemLoadWait := [(0, n)], dmemStoreWait := [(0, n)] } }

/-- The given state in a machine whose counter is `w` bits wide. -/
def counted (w : Nat) (s : State) : State := { s with params := { s.params with cycleWidth := some w } }

/-- A machine of eight registers. -/
def eight : State := { State.reset with params := { Params.reference with nreg := 8, dmarIdx := 6, imarIdx := 7 } }

/-! ### Well-formed instructions (10_state.md R22) -/

theorem test_illFormed_add :
    Instr.wellFormed 8 (.add 8) = false ∧ Instr.wellFormed 8 (.add 7) = true ∧ Instr.wellFormed 16 (.add 15) = true :=
  by decide
theorem test_illFormed_sub :
    Instr.wellFormed 8 (.sub 8) = false ∧ Instr.wellFormed 8 (.sub 7) = true ∧ Instr.wellFormed 16 (.sub 15) = true :=
  by decide
theorem test_illFormed_and :
    Instr.wellFormed 8 (.and 8) = false ∧ Instr.wellFormed 8 (.and 7) = true ∧ Instr.wellFormed 16 (.and 15) = true :=
  by decide
theorem test_illFormed_or :
    Instr.wellFormed 8 (.or 8) = false ∧ Instr.wellFormed 8 (.or 7) = true ∧ Instr.wellFormed 16 (.or 15) = true :=
  by decide
theorem test_illFormed_xor :
    Instr.wellFormed 8 (.xor 8) = false ∧ Instr.wellFormed 8 (.xor 7) = true ∧ Instr.wellFormed 16 (.xor 15) = true :=
  by decide
theorem test_illFormed_get :
    Instr.wellFormed 8 (.get 8) = false ∧ Instr.wellFormed 8 (.get 7) = true ∧ Instr.wellFormed 16 (.get 15) = true :=
  by decide
theorem test_illFormed_put :
    Instr.wellFormed 8 (.put 8) = false ∧ Instr.wellFormed 8 (.put 7) = true ∧ Instr.wellFormed 16 (.put 15) = true :=
  by decide
theorem test_wellFormed_noRegister :
    [Instr.addi 255, .subi 0, .andi 1, .ori 2, .xori 3, .set 4, .load, .store, .bcc 5, .bcs 6, .bvc 7, .bvs 8,
      .jmpi 9, .jmpr, .jmpa, .halt].all (Instr.wellFormed 0) = true :=
  by decide
/-! ### Decoding: words written out bit by bit, op sub arg (30_encoding.md Tables R94, R96) -/

theorem test_decode_addi : decode 0b0000000001010101 = .instr (.addi 0x55) := by decide
theorem test_decode_subi : decode 0b0000000100000001 = .instr (.subi 1) := by decide
theorem test_decode_andi : decode 0b0000001000111100 = .instr (.andi 0x3C) := by decide
theorem test_decode_ori : decode 0b0000001100111100 = .instr (.ori 0x3C) := by decide
theorem test_decode_xori : decode 0b0000010011111111 = .instr (.xori 0xFF) := by decide
theorem test_decode_add : decode 0b0001000000001111 = .instr (.add 15) := by decide
theorem test_decode_sub : decode 0b0001000100000011 = .instr (.sub 3) := by decide
theorem test_decode_and : decode 0b0001001000000001 = .instr (.and 1) := by decide
theorem test_decode_or : decode 0b0001001100000001 = .instr (.or 1) := by decide
theorem test_decode_xor : decode 0b0001010000001111 = .instr (.xor 15) := by decide
theorem test_decode_set : decode 0b0010000000000101 = .instr (.set 5) := by decide
theorem test_decode_get : decode 0b0011000000000011 = .instr (.get 3) := by decide
theorem test_decode_put : decode 0b0100000000001110 = .instr (.put 14) := by decide
theorem test_decode_load : decode 0b0101000000000000 = .instr (.load) := by decide
theorem test_decode_store : decode 0b0110000000000000 = .instr (.store) := by decide
theorem test_decode_bcc : decode 0b0111000000000001 = .instr (.bcc 1) := by decide
theorem test_decode_bcs : decode 0b0111000101000000 = .instr (.bcs 0x40) := by decide
theorem test_decode_bvc : decode 0b0111001000010000 = .instr (.bvc 0x10) := by decide
theorem test_decode_bvs : decode 0b0111001100100000 = .instr (.bvs 0x20) := by decide
theorem test_decode_jmpi : decode 0b1000000011111110 = .instr (.jmpi 0xFE) := by decide
theorem test_decode_jmpr : decode 0b1001000000000000 = .instr (.jmpr) := by decide
theorem test_decode_jmpa : decode 0b1010000000000000 = .instr (.jmpa) := by decide
theorem test_decode_halt : decode 0b1111000000000000 = .instr (.halt) := by decide

/-- X2 of 95_test_vectors.md, a word of each kind -/
theorem test_decode_reserved :
    decode 0xB000 = .reserved .unassignedOpcode ∧ decode 0xEFFF = .reserved .unassignedOpcode ∧
    decode 0x0500 = .reserved .unassignedFunction ∧ decode 0x1500 = .reserved .unassignedFunction ∧
    decode 0x7400 = .reserved .unassignedCondition ∧ decode 0x1010 = .reserved .mustBeZero ∧
    decode 0x3010 = .reserved .mustBeZero ∧ decode 0x2100 = .reserved .mustBeZero ∧ decode 0x5001 = .reserved .mustBeZero :=
  by decide
theorem test_tableWord :
    decodeTableWord 16 0x0055 = some (.addi 0x55) ∧ decodeTableWord 16 0xF000 = some .halt ∧
    decodeTableWord 16 0xB000 = none ∧ decodeTableWord 32 0x0055 = none :=
  by decide
theorem test_encode : encode (.bvs 0x20) = 0x7320 ∧ encode (.put 14) = 0x400E ∧ encode .jmpa = 0xA000 := by decide
/-! ### Operations -/

/-- Bit 0 is C, bit 1 is V (10_state.md R23) -/
theorem test_statusBus :
    Status.toBus .reference ⟨true, false⟩ = 2 ∧ Status.toBus .reference ⟨false, true⟩ = 1 ∧
    Status.ofBus .reference 2 = ⟨true, false⟩ ∧ Status.toBus ⟨8, 7, 0⟩ ⟨true, true⟩ = 0x81 :=
  by decide
theorem test_memoryCanonical :
    Memory.write (Memory.write ([] : Memory 8) (9 : Addr) 5) (2 : Addr) 7 = [(2, 7), (9, 5)] ∧
    Memory.write ([(2, 7), (9, 5)] : Memory 8) (9 : Addr) 0 = [(2, 7)] ∧ Memory.read ([(2, 7)] : Memory 8) (3 : Addr) = 0 :=
  by decide
/-- The bytes of P1, most significant first -/
theorem test_packWords :
    packWords 16 [0x20, 0x05, 0xF0, 0x00] = some [0x2005, 0xF000] ∧ packWords 16 [0x20] = none ∧
    packWords 24 [0x01, 0x02, 0x03] = some [0x010203] ∧ packWords 12 [0x20, 0x05] = none :=
  by decide
/-! ### One step an instruction: vectors of 95_test_vectors.md -/

/-- A1 -/
theorem test_addi_carry :
    runs 0x0055 { State.reset with acc := 0xAB }
      (fun t => decide (t.acc = 0 ∧ t.st = ⟨false, true⟩ ∧ t.pc = 1)) = true :=
  by decide
/-- A2 -/
theorem test_addi_overflow :
    runs 0x0001 { State.reset with acc := 0x7F } (fun t => decide (t.acc = 0x80 ∧ t.st = ⟨true, false⟩)) = true :=
  by decide
/-- A10 -/
theorem test_subi_borrow :
    runs 0x0101 { State.reset with acc := 0 }
      (fun t => decide (t.acc = 0xFF ∧ t.st = ⟨false, true⟩ ∧ t.pc = 1)) = true :=
  by decide
/-- A11 -/
theorem test_subi_overflow :
    runs 0x0101 { State.reset with acc := 0x80 } (fun t => decide (t.acc = 0x7F ∧ t.st = ⟨true, false⟩)) = true :=
  by decide
/-- A16 -/
theorem test_andi :
    runs 0x023C { State.reset with acc := 0xF0 } (fun t => decide (t.acc = 0x30 ∧ t.st = ⟨false, false⟩)) = true :=
  by decide
/-- A21 -/
theorem test_ori_clearsFlags :
    runs 0x0300 { State.reset with acc := 0x5A, st := ⟨true, true⟩ }
      (fun t => decide (t.acc = 0x5A ∧ t.st = ⟨false, false⟩)) = true :=
  by decide
/-- A18 -/
theorem test_xori :
    runs 0x043C { State.reset with acc := 0xF0 } (fun t => decide (t.acc = 0xCC ∧ t.st = ⟨false, false⟩)) = true :=
  by decide
/-- A22 -/
theorem test_add :
    runs 0x1003 { withX 3 0x22 with acc := 0x10 } (fun t => decide (t.acc = 0x32 ∧ t.st = ⟨false, false⟩)) = true :=
  by decide
/-- A27 -/
theorem test_add_overflow :
    runs 0x100F { withX 15 0x40 with acc := 0x40 } (fun t => decide (t.acc = 0x80 ∧ t.st = ⟨true, false⟩)) = true :=
  by decide
/-- A23 -/
theorem test_sub_order :
    runs 0x1103 { withX 3 0x22 with acc := 0x10 } (fun t => decide (t.acc = 0xEE ∧ t.st = ⟨false, true⟩)) = true :=
  by decide
/-- A24 -/
theorem test_and :
    runs 0x1201 { withX 1 0x3C with acc := 0xF0 } (fun t => decide (t.acc = 0x30 ∧ t.st = ⟨false, false⟩)) = true :=
  by decide
/-- A25 -/
theorem test_or :
    runs 0x1301 { withX 1 0x3C with acc := 0xF0 } (fun t => decide (t.acc = 0xFC ∧ t.st = ⟨false, false⟩)) = true :=
  by decide
/-- A26 -/
theorem test_xor :
    runs 0x1401 { withX 1 0x3C with acc := 0xF0 } (fun t => decide (t.acc = 0xCC ∧ t.st = ⟨false, false⟩)) = true :=
  by decide
/-- G1 -/
theorem test_set_keepsFlags :
    runs 0x2005 { State.reset with acc := 0x99, st := ⟨true, true⟩ }
      (fun t => decide (t.acc = 5 ∧ t.st = ⟨true, true⟩ ∧ t.pc = 1)) = true :=
  by decide
/-- G4 -/
theorem test_get : runs 0x3003 (withX 3 0x22) (fun t => decide (t.acc = 0x22 ∧ Regs.read t.x 3 = 0x22)) = true := by decide
/-- G6 -/
theorem test_put_dmar :
    runs 0x400E { State.reset with acc := 0x10 }
      (fun t => decide (Regs.read t.x 14 = 0x10 ∧ t.dmar = 0x10 ∧ t.acc = 0x10 ∧ t.imar = 0)) = true :=
  by decide
/-- G7 -/
theorem test_put_imar :
    runs 0x400F { State.reset with acc := 0xFD }
      (fun t => decide (Regs.read t.x 15 = 0xFD ∧ t.imar = 0xFD ∧ t.dmar = 0)) = true :=
  by decide
/-- M1 -/
theorem test_load :
    runs 0x5000 { withX 14 0x10 with dmem := [(0x10, 0xAB)] }
      (fun t => decide (t.acc = 0xAB ∧ t.dmem = [(0x10, 0xAB)] ∧ t.pc = 1)) = true :=
  by decide
/-- M4, cycle 1 -/
theorem test_load_stalls :
    runs 0x5000 { withX 14 0x10 with
        dmem := [(0x10, 0xAB)]
        params := { Params.reference with dmemLoadWait := [(0x10, 2)] } }
      (fun t => decide (t.acc = 0 ∧ t.stalled = true ∧ t.pc = 0 ∧ t.dmReq = some (.load 0x10 1))) = true :=
  by decide
/-- M2 -/
theorem test_store :
    runs 0x6000 { withX 14 0x10 with acc := 0xAB }
      (fun t => decide (t.dmem = [(0x10, 0xAB)] ∧ t.acc = 0xAB ∧ t.pc = 1)) = true :=
  by decide
/-- M5, cycle 1 -/
theorem test_store_stalls :
    runs 0x6000 { withX 14 0x10 with
        acc := 0xAB
        params := { Params.reference with dmemStoreWait := [(0x10, 1)] } }
      (fun t => decide (t.dmem = [] ∧ t.stalled = true ∧ t.stagedStore = none)) = true :=
  by decide
/-- B2 -/
theorem test_bcc_notTaken :
    runs 0x7040 { State.reset with st := ⟨false, true⟩, pc := 0x20 }
      (fun t => decide (t.pc = 0x21 ∧ t.st = ⟨false, true⟩)) = true :=
  by decide
/-- B9 -/
theorem test_bcc_wraps :
    runs 0x7000 { State.reset with st := ⟨false, true⟩, pc := 0xFF }
      (fun t => decide (t.pc = 0 ∧ t.st = ⟨false, true⟩)) = true :=
  by decide
/-- B1 -/
theorem test_bcs_taken :
    runs 0x7140 { State.reset with st := ⟨false, true⟩, pc := 0x20 }
      (fun t => decide (t.pc = 0x40 ∧ t.st = ⟨false, true⟩)) = true :=
  by decide
/-- B4 -/
theorem test_bcs_notTaken :
    runs 0x7101 { State.reset with st := ⟨false, false⟩, pc := 2 }
      (fun t => decide (t.pc = 3 ∧ t.st = ⟨false, false⟩)) = true :=
  by decide
/-- B5 -/
theorem test_bvc_taken :
    runs 0x7210 { State.reset with st := ⟨false, false⟩, pc := 5 }
      (fun t => decide (t.pc = 0x10 ∧ t.st = ⟨false, false⟩)) = true :=
  by decide
/-- B6 -/
theorem test_bvc_notTaken :
    runs 0x7210 { State.reset with st := ⟨true, false⟩, pc := 5 }
      (fun t => decide (t.pc = 6 ∧ t.st = ⟨true, false⟩)) = true :=
  by decide
/-- B7 -/
theorem test_bvs_taken :
    runs 0x7320 { State.reset with st := ⟨true, false⟩, pc := 5 }
      (fun t => decide (t.pc = 0x20 ∧ t.st = ⟨true, false⟩)) = true :=
  by decide
/-- B8 -/
theorem test_bvs_notTaken :
    runs 0x7320 { State.reset with st := ⟨false, false⟩, pc := 5 }
      (fun t => decide (t.pc = 6 ∧ t.st = ⟨false, false⟩)) = true :=
  by decide
/-- J2 -/
theorem test_jmpi : runs 0x80FE { State.reset with pc := 1 } (fun t => decide (t.pc = 0xFF)) = true := by decide
/-- J4 -/
theorem test_jmpr : runs 0x9000 { withX 15 0xFD with pc := 12 } (fun t => decide (t.pc = 9)) = true := by decide
/-- J5 -/
theorem test_jmpa : runs 0xA000 { withX 15 0xFD with pc := 9 } (fun t => decide (t.pc = 0xFD)) = true := by decide
/-- H1 -/
theorem test_halt :
    runs 0xF000 { State.reset with pc := 7, cycleCount := 7 }
      (fun t => decide (t.halted = true ∧ t.cycleCount = 8 ∧ t.pc = 7)) = true :=
  by decide
/-! ### Runs -/

/-- P1 (S4) -/
theorem test_run_P1 :
    (runBounded Collaborators.reference 9 (loaded [0x2005, 0xF000])).snapshots.length = 1 ∧
    (runBounded Collaborators.reference 9 (loaded [0x2005, 0xF000])).final.acc = 5 :=
  by decide
/-- W1 (S5) -/
theorem test_watchdog : runUntilHalt Collaborators.reference 10 (loaded [0x8000]) = .watchdogTimeout 10 := by decide
/-- F1, cycles 1 and 2 -/
theorem test_fetchStall :
    after 2 { loaded [0x2005] with params := { Params.reference with imemWait := [(0, 2)] } }
      (fun t => decide (t.stalled = true ∧ t.stallLatch = true ∧ t.acc = 0 ∧ t.cycleCount = 2)) = true :=
  by decide
/-- A counter of one bit refuses the cycle that would wrap it (93 U20) -/
theorem test_counterFull :
    step (counted 1 { State.reset with cycleCount := 1 }) = .refused .cycleCountFull ∧
    ∃ t, step (counted 1 State.reset) = .next t ∧ t.cycleCount = 1 :=
  ⟨rfl, _, rfl, by decide⟩

/-- Widths other than the reference ones: 24-bit words, 12-bit data, 10-bit addresses, 3-bit indices. -/
abbrev wide : Widths := ⟨24, 12, 10, 3⟩

/-- A machine of those widths: eight registers, r5 the data address register, r6 the other, 0xABC in r5. -/
def wideState : State wide :=
  State.fresh
    { nreg := 8, statusLayout := .reference, dmarIdx := 5, imarIdx := 6, imemWait := [], dmemLoadWait := []
      dmemStoreWait := [], resetPc := 0x3FF, resetAcc := 0xFFF, resetX := Regs.write (Regs.fill 0) 5 0xABC
      resetSt := ⟨false, false⟩, imemInit := [], dmemInit := [(0x2BC, 7)], loadBase := 0, cycleWidth := none }

/-- Collaborators that read one fixed record from every word and have the reference ALU and conditions. -/
def always (d : Decoded wide) : Collaborators wide := ⟨fun _ => .record d, referenceAlu, referenceCond⟩

/-- Rules R7, R9, R24: values wrap at the machine's own widths -/
theorem test_wide :
    wideState.params.wf = true ∧ wideState.dmar = 0x2BC ∧ (iterate (always .memLoad) wideState).2.acc = 7 ∧
    (iterate (always (.aluImm 0 1)) wideState).2.acc = 0 ∧ (iterate (always (.aluImm 0 1)) wideState).2.st = ⟨false, true⟩ ∧
    (iterate (always (.aluImm 0 1)) wideState).2.pc = 0 :=
  by decide
/-! ### Witnesses of the statements' hypotheses -/

theorem witness_EncodeOfDecodedWordIsTheWord : decode 0x140F = .instr (.xor 15) := by decide
theorem witness_DecodeAgreesWithOpcodeTable :
    decode 0x0000 = .instr (.addi 0) ∧ (0x00FF : InstrWord) &&& rowMask (.addi 0) = rowMatch (.addi 0) :=
  by decide
theorem witness_AddInstructionsAdd :
    State.reset.Quiet ∧ (15 : RegIdx).toNat < State.reset.params.nreg ∧ eight.Quiet ∧ (7 : RegIdx).toNat < eight.params.nreg :=
  by decide
theorem witness_SubInstructionsSubtract : State.reset.Quiet ∧ (0 : RegIdx).toNat < State.reset.params.nreg := by decide
theorem witness_LogicalInstructionsCombineBits :
    State.reset.Quiet ∧ (15 : RegIdx).toNat < State.reset.params.nreg :=
  by decide
theorem witness_AluInstructionsFrame :
    isAluOp (.xor 15) = true ∧ Instr.wellFormed State.reset.params.nreg (.xor 15) = true ∧ State.reset.Quiet ∧
      ∃ t, exec (.xor 15) State.reset = .next t :=
  ⟨by decide, by decide, by decide, _, rfl⟩
theorem witness_MissingRegisterFaults :
    registerIndex (.put 8) = some 8 ∧ eight.params.nreg ≤ (8 : RegIdx).toNat :=
  by decide
theorem witness_SetGetPutMoveTheValue : eight.Quiet ∧ (7 : RegIdx).toNat < eight.params.nreg := by decide
theorem witness_PutMovesAddressRegisters :
    State.reset.Quiet ∧ State.reset.params.dmarIdx = 14 ∧ State.reset.params.imarIdx = 15 ∧
      (14 : RegIdx).toNat < State.reset.params.nreg ∧ (15 : RegIdx).toNat < State.reset.params.nreg ∧
      (13 : RegIdx).toNat < State.reset.params.nreg :=
  by decide
theorem witness_RegisterFileInstructionsFrame :
    State.reset.Quiet ∧ (3 : RegIdx).toNat < State.reset.params.nreg ∧ (∃ t, exec (.set 9) State.reset = .next t) ∧
      (∃ t, exec (.get 3) State.reset = .next t) ∧ ∃ t, exec (.put 3) State.reset = .next t :=
  ⟨by decide, by decide, ⟨_, rfl⟩, ⟨_, rfl⟩, _, rfl⟩
theorem witness_LoadReadsTheCommittedWord :
    State.reset.Quiet ∧ State.reset.loadWaits = 0 ∧ State.loadWaits { waiting 3 with dmReq := some (.load 0 0) } = 0 :=
  by decide
theorem witness_LoadStallsWhileWaiting :
    (waiting 1).loadWaits = 0 + 1 ∧ State.loadWaits { State.reset with dmReq := some (.load 0 5) } = 4 + 1 :=
  by decide
theorem witness_StoreWritesAtDmar :
    State.reset.Quiet ∧ Memory.wf State.reset.dmem = true ∧ State.reset.storeWaits = 0 ∧
      State.storeWaits { waiting 3 with dmReq := some (.store 0 0 0) } = 0 :=
  by decide
theorem witness_StoreStallsWhileWaiting :
    (waiting 1).storeWaits = 0 + 1 ∧ State.storeWaits { State.reset with dmReq := some (.store 0 0 5) } = 4 + 1 :=
  by decide
theorem witness_MemoryInstructionsFrame :
    State.reset.Quiet ∧ Memory.wf State.reset.dmem = true ∧ (∃ t, exec .load State.reset = .next t) ∧
      (∃ t, exec .store State.reset = .next t) ∧ ∃ t, exec .store (waiting 1) = .next t :=
  ⟨by decide, by decide, ⟨_, rfl⟩, ⟨_, rfl⟩, _, rfl⟩

/-- A STORE at address 0, a LOAD at address 1, `acc` 0xAB. -/
def storeLoad : State := { loaded [0x6000, 0x5000] with acc := 0xAB }

theorem witness_StoreThenLoadReturnsValue :
    storeLoad.Quiet ∧ Memory.wf storeLoad.dmem = true ∧ storeLoad.fetchWaits = 0 ∧
      decode storeLoad.wordAtPc = .instr .store ∧ storeLoad.storeWaits = 0 ∧
      ∃ t, step storeLoad = .next t ∧ t.roomFor 1 = true ∧ t.fetchWaits = 0 ∧ decode t.wordAtPc = .instr .load ∧
        t.loadWaits = 0 :=
  ⟨by decide, by decide, by decide, by decide, by decide, _, rfl, by decide, by decide, by decide, by decide⟩
theorem witness_CarryBranchesTestTheCarry :
    State.Quiet { State.reset with st := ⟨false, true⟩ } ∧ State.Quiet { State.reset with st := ⟨false, false⟩ } :=
  by decide
theorem witness_OverflowBranchesTestTheOverflow :
    State.Quiet { State.reset with st := ⟨true, false⟩ } ∧ State.Quiet { State.reset with st := ⟨false, true⟩ } :=
  by decide
theorem witness_JumpsReachTheirTarget : State.Quiet { State.reset with pc := 255 } := by decide
theorem witness_ControlTransferFrame :
    isTransfer .jmpa = true ∧ State.reset.Quiet ∧ ∃ t, exec .jmpa State.reset = .next t :=
  ⟨by decide, by decide, _, rfl⟩
theorem witness_SequentialInstructionsIncrement :
    ∃ s t u v : State, s.fetchWaits = 0 ∧ decode s.wordAtPc = .instr (.addi 0) ∧ s.pc = 255 ∧ step s = .next t ∧
      t.stalled = false ∧ t.fault = none ∧ u.fetchWaits = 0 ∧ decode u.wordAtPc = .instr .halt ∧ step u = .next v ∧
      v.stalled = false ∧ v.fault = none :=
  ⟨{ State.reset with pc := 255 }, _, loaded [0xF000], _, by decide, by decide, by decide, rfl, by decide, by decide,
    by decide, by decide, rfl, by decide, by decide⟩
theorem witness_StepRunsTheDecodedInstruction :
    State.reset.CanRun ∧ State.reset.fetchWaits = 0 ∧
      decode (Memory.read State.reset.imem State.reset.pc) = .instr (.addi 0) :=
  by decide
theorem witness_FetchStallsWhileWaiting : (waiting 1).CanRun ∧ (waiting 1).fetchWaits = 0 + 1 := by decide
theorem witness_ReservedWordFaults :
    (loaded [0xB000]).CanRun ∧ (loaded [0xB000]).fetchWaits = 0 ∧
      decode (loaded [0xB000]).wordAtPc = .reserved .unassignedOpcode :=
  by decide
theorem witness_StoppedMachineTakesNoStep :
    State.fault { State.reset with fault := some (.badRegisterIndex 9) } = some (.badRegisterIndex 9) ∧
      State.halted { State.reset with halted := true } = true ∧ State.fault { State.reset with halted := true } = none ∧
      State.halted (counted 0 State.reset) = false ∧ State.fault (counted 0 State.reset) = none ∧
      State.roomFor (counted 0 State.reset) 1 = false ∧ State.reset.CanRun ∧ State.CanRun (counted 1 State.reset) ∧
      State.roomFor (counted 1 { State.reset with cycleCount := 1 }) 1 = false :=
  by decide
theorem witness_StepCountsTheCycle :
    ∃ t u, step State.reset = .next t ∧ t.fault = none ∧ step (loaded [0xB000]) = .next u ∧ u.fault ≠ none :=
  ⟨_, _, rfl, by decide, rfl, by decide⟩
theorem witness_HaltedIsSetByHaltAndSticks :
    State.halted { State.reset with halted := true } = true ∧
      ∃ t u, step (loaded [0xF000]) = .next t ∧ t.halted = true ∧ step State.reset = .next u ∧ u.halted = false :=
  ⟨by decide, _, _, rfl, by decide, rfl, by decide⟩
theorem witness_StatusIsWrittenByAluOpsOnly :
    State.Quiet { loaded [0x0055] with acc := 0xAB } ∧
      ∃ t, step { loaded [0x0055] with acc := 0xAB } = .next t ∧ t.st ≠ State.reset.st :=
  ⟨by decide, _, rfl, by decide⟩
theorem witness_RegistersAreWrittenByPutOnly :
    State.Quiet { loaded [0x400E] with acc := 0xAB } ∧
      ∃ t, step { loaded [0x400E] with acc := 0xAB } = .next t ∧ t.x ≠ State.reset.x :=
  ⟨by decide, _, rfl, by decide⟩
theorem witness_InstructionMemoryIsNeverWritten : ∃ t, steps 2 storeLoad = .next t := ⟨_, rfl⟩
theorem witness_StalledStepChangesNothingCommitted :
    ∃ t u v, step (waiting 1) = .next t ∧ t.stalled = true ∧ (waiting 1).fetchWaits ≠ 0 ∧
      step { loaded [0x5000] with dmReq := some (.load 0 1) } = .next u ∧ u.stalled = true ∧
      step { loaded [0x6000] with dmReq := some (.store 0 0 1) } = .next v ∧ v.stalled = true :=
  ⟨_, _, _, rfl, by decide, by decide, rfl, by decide, rfl, by decide⟩
theorem witness_FaultingStepIsPrecise :
    ∃ t, step (loaded [0xB000]) = .next t ∧ t.fault = some (.reservedEncoding 0xB000 0) :=
  ⟨_, rfl, by decide⟩

/-- Between two attempts of a LOAD at address 0, one wait left. -/
def midLoad : State :=
  { loaded [0x5000] with
    cycleCount := 1, stalled := true, stallLatch := true, imReq := some ⟨0, 0⟩, dmReq := some (.load 0 1) }

theorem witness_InvariantIsKeptByEveryStep :
    midLoad.Inv ∧ ∃ t, step midLoad = .next t :=
  ⟨⟨by decide, by decide, by decide, by decide, by decide, by decide, by decide, by decide,
    ⟨by decide, .inl (by decide)⟩, by decide, by decide, by decide, by decide⟩, _, rfl⟩
theorem witness_HostResetRestoresTheTable :
    midLoad.params.wf = true ∧ Memory.wf midLoad.params.imemInit = true ∧ Memory.wf midLoad.params.dmemInit = true :=
  by decide
theorem witness_StepAgreesWithStageSequencer : midLoad.CanRun ∧ State.reset.CanRun := by decide
theorem witness_SequencerCommitsAluResult :
    State.reset.Quiet ∧ State.reset.fetchWaits = 0 ∧
      Collaborators.reference.decode State.reset.wordAtPc = .record (.aluImm 0 0) ∧ (loaded [0x140F]).Quiet ∧
      (loaded [0x140F]).fetchWaits = 0 ∧ (15 : RegIdx).toNat < (loaded [0x140F]).params.nreg ∧
      Collaborators.reference.decode (loaded [0x140F]).wordAtPc = .record (.aluReg 4 15) :=
  by decide
theorem witness_SequencerBranchesOnCommittedStatus :
    (loaded [0x7320]).Quiet ∧ (loaded [0x7320]).fetchWaits = 0 ∧
      Collaborators.reference.decode (loaded [0x7320]).wordAtPc = .record (.branch 3 0x20) :=
  by decide
theorem witness_ShortCircuitCommitsNothing :
    (cycle Collaborators.reference (waiting 1)).1 = .stalled ∧ (cycle Collaborators.reference midLoad).1 = .stalled ∧
      (cycle Collaborators.reference { loaded [0x6000] with dmReq := some (.store 0 0 1) }).1 = .stalled ∧
      (cycle Collaborators.reference (loaded [0xF000])).1 = .halted ∧
      (cycle Collaborators.reference (loaded [0xB000])).1 = .fault (.reservedEncoding 0xB000 0) ∧
      (cycle Collaborators.reference storeLoad).1 = .completed ∧ (cycle (always .memStore) wideState).1 = .completed :=
  by decide

/-- A Decode Unit that breaks its contract on every word. -/
def broken (u : UnknownSub) : Collaborators := { Collaborators.reference with decode := fun _ => .unknown u }

theorem witness_UnknownSubOperationFaults :
    State.reset.fetchWaits = 0 ∧ (broken (.registerFile 3)).decode State.reset.wordAtPc = .unknown (.registerFile 3) ∧
      (broken (.memory 2)).decode State.reset.wordAtPc = .unknown (.memory 2) ∧
      (broken (.jump 3)).decode State.reset.wordAtPc = .unknown (.jump 3) :=
  by decide
theorem witness_RegisterFileCommitMakesStagedCurrent :
    ∃ s : State, s.nextAcc = some 5 ∧ s.nextSt = some ⟨true, false⟩ ∧ Regs.read s.nextX 14 = some 5 ∧
      Regs.read s.nextX 15 = none ∧ State.reset.nextAcc = none ∧ State.reset.nextSt = none :=
  ⟨{ State.reset with nextAcc := some 5, nextSt := some ⟨true, false⟩, nextX := Regs.write State.reset.nextX 14 (some 5) },
    by decide⟩
theorem witness_DataMemoryChangesByStoreCommitOnly :
    Memory.wf storeLoad.dmem = true ∧ storeLoad.stagedStore = none ∧
      State.stagedStore { storeLoad with stagedStore := some (0xFF, 1) } = some (0xFF, 1) ∧
      (∃ u : State, u.dmem = (State.commitDataMemory { storeLoad with stagedStore := some (0xFF, 1) }).dmem ∧
        u.dmar = 0xFF ∧ u.Quiet ∧ u.loadWaits = 0) ∧
      storeLoad.Quiet ∧ ∃ t, step storeLoad = .next t ∧ t.dmem ≠ storeLoad.dmem :=
  ⟨by decide, by decide, by decide, ⟨{ withX 14 0xFF with dmem := [(0xFF, 1)] }, by decide⟩, by decide, _, rfl, by decide⟩

/-- V1 from its PUT on: PUT r3, GET r3 with 7 in the accumulator. -/
def putGet : State := { loaded [0x4003, 0x3003] with acc := 7 }

/-- `putGet` with something staged in every kind of slot. -/
def putGetStaged : State :=
  { putGet with
    nextAcc := some 1, nextX := Regs.write putGet.nextX 3 (some 2), nextSt := some ⟨true, true⟩, nextPc := some 9
    stagedStore := some (4, 5) }

theorem witness_StagedWritesAreInvisibleUntilCommit :
    ButStaged putGet putGetStaged ∧ ButStaged putGetStaged putGet ∧
      executeStage Collaborators.reference putGet (.record (.rfPut 3)) = .proceed (putGet.setNextRegister 3 7) ∧
      putGet.Quiet ∧ (3 : RegIdx).toNat < putGet.params.nreg ∧ putGet.fetchWaits = 0 ∧
      decode putGet.wordAtPc = .instr (.put 3) ∧
      ∃ t, step putGet = .next t ∧ t.roomFor 1 = true ∧ t.fetchWaits = 0 ∧ decode t.wordAtPc = .instr (.get 3) :=
  ⟨rfl, rfl, by decide, by decide, by decide, by decide, by decide, _, rfl, by decide, by decide, by decide⟩
theorem witness_RunEndsInOneOfThreeWays :
    State.reset.CanRun ∧ State.reset.Quiet ∧ (loaded [0xF000]).CanRun ∧ (loaded [0xF000]).Quiet ∧ (loaded [0xB000]).CanRun ∧
      (loaded [0xB000]).Quiet ∧ (∃ r, (runLoop Collaborators.reference none 1 (loaded [0xF000])).ending = .halted r) ∧
      (∃ r, (runLoop Collaborators.reference (some 1) 1 State.reset).ending = .timedOut r) ∧
      (runLoop Collaborators.reference none 1 (loaded [0xB000])).ending = .faulted (.reservedEncoding 0xB000 0) ∧
      (runLoop Collaborators.reference none 1 State.reset).ending = .abandoned ∧
      State.CanRun (counted 1 State.reset) ∧ State.Quiet (counted 1 State.reset) ∧
      (runLoop Collaborators.reference none 1 (counted 1 State.reset)).ending = .counterFull :=
  ⟨by decide, by decide, by decide, by decide, by decide, by decide, ⟨_, rfl⟩, ⟨_, rfl⟩, by decide, by decide, by decide,
    by decide, by decide⟩
theorem witness_BoundedRunEndsByTheBound :
    State.reset.cycleCount ≤ 0 ∧ State.reset.cycleCount ≤ 3 ∧
      (runBounded Collaborators.reference 3 State.reset).ending =
        .timedOut (runBounded Collaborators.reference 3 State.reset).final.snapshot ∧
      State.reset.params.cycleWidth = none ∧
      (runBounded Collaborators.reference 3 (counted 1 State.reset)).ending = .counterFull :=
  by decide
theorem witness_SnapshotsCountTheCycles :
    State.reset.CanRun ∧ (loaded [0xF000]).CanRun ∧
      (∃ r, (runLoop Collaborators.reference none 2 (loaded [0xF000])).ending = .halted r) ∧
      (∀ r, (runLoop Collaborators.reference none 2 State.reset).ending ≠ .halted r) ∧
      ∃ snap, (runLoop Collaborators.reference none 2 State.reset).snapshots[1]? = some snap :=
  ⟨by decide, by decide, ⟨_, rfl⟩, (fun _ h => by cases h), _, rfl⟩
theorem witness_HaltingIterationEndsTheRun :
    (loaded [0xF000]).CanRun ∧ (loaded [0xF000]).fetchWaits = 0 ∧
      Collaborators.reference.decode (loaded [0xF000]).wordAtPc = .record .halt ∧
      boundReached (some 1) (loaded [0xF000]) = false ∧ boundReached none (loaded [0xF000]) = false :=
  by decide
theorem witness_RunUntilHaltAnswersResultOrTimeout :
    (∃ r, (runLoop Collaborators.reference (some 1) 1 (loaded [0xF000])).ending = .halted r) ∧
      (∃ r, (runLoop Collaborators.reference (some 1) 1 State.reset).ending = .timedOut r) ∧
      (runBounded Collaborators.reference 2 State.reset).final.halted = false ∧
      (runBounded Collaborators.reference 2 State.reset).final.fault = none ∧
      2 ≤ (runBounded Collaborators.reference 2 State.reset).final.cycleCount ∧ State.reset.cycleCount < 2 :=
  ⟨⟨_, rfl⟩, ⟨_, rfl⟩, by decide, by decide, by decide, by decide⟩
theorem witness_AbandonedRunMayBeResumed :
    State.reset.Quiet ∧ (runLoop Collaborators.reference none 2 State.reset).ending = .abandoned :=
  by decide
theorem witness_RunOnStoppedMachineTakesNoCycle :
    State.halted { State.reset with halted := true } = true ∧ State.fault { State.reset with halted := true } = none ∧
      State.fault { State.reset with fault := some (.badRegisterIndex 9) } = some (.badRegisterIndex 9) :=
  by decide
theorem witness_SideLoadInstallsTheProgram :
    Memory.wf State.reset.imem = true ∧ (List.replicate 256 (0xF000 : InstrWord)).length ≤ 256 ∧
      State.reset.beforeAnyRun = true ∧ 256 < (List.replicate 257 (0xF000 : InstrWord)).length ∧
      midLoad.beforeAnyRun = false ∧ ([] : List InstrWord)[0]? = none ∧ [(0xF000 : InstrWord)][0]? = some 0xF000 :=
  ⟨by decide, by rw [List.length_replicate], by decide, by rw [List.length_replicate]; decide, by decide, by decide,
    by decide⟩
theorem witness_LoadBinaryPacksBytesIntoWords : [(0x20 : Byte)].length % 2 = 1 := by decide
theorem witness_FetchStallsExactlyItsWaits :
    (waiting 2).CanRun ∧ decode (waiting 2).wordAtPc = .instr (.addi 0) ∧ 0 + 1 + 1 = (waiting 2).fetchWaits ∧
      1 + 0 + 1 = (waiting 2).fetchWaits ∧ State.reset.fetchWaits = 0 ∧ (waiting 2).roomFor ((waiting 2).fetchWaits + 1) = true ∧
      State.roomFor (counted 2 (waiting 2)) 3 = true ∧ State.roomFor (counted 2 (waiting 2)) 4 = false :=
  by decide
theorem witness_LoadAndStoreTakeTheirWaits :
    (loaded [0x5000]).CanRun ∧ (loaded [0x5000]).Quiet ∧ decode (loaded [0x5000]).wordAtPc = .instr .load ∧
      (loaded [0x6000]).CanRun ∧ (loaded [0x6000]).Quiet ∧ decode (loaded [0x6000]).wordAtPc = .instr .store ∧
      (loaded [0x5000]).roomFor ((loaded [0x5000]).fetchWaits + (loaded [0x5000]).loadWaits + 1) = true ∧
      (loaded [0x6000]).roomFor ((loaded [0x6000]).fetchWaits + (loaded [0x6000]).storeWaits + 1) = true :=
  by decide
theorem witness_LatencyChangesOnlyCounts :
    State.reset.timeless = (waiting 2).timeless ∧ (waiting 2).params.cycleWidth = none ∧
      ∃ t, steps 1 State.reset = .next t :=
  ⟨by decide, by decide, _, rfl⟩

end Sys2Proof.Tests
end

/-!
# The state and its frames (10_state.md)

What each instruction does to the state, said once, and the obligations of 10_state.md derived from it.
-/

namespace Sys2Proof.Machine

open Sys2Proof.Claims

/-! ### What an instruction answers from empty staged slots -/

section Quiet

variable {s : State}

/-- A register index below `NREG` names a register that answers (10_state.md R22). -/
theorem State.register_of_lt {idx : RegIdx} (h : idx.toNat < s.params.nreg) :
    s.register idx = some (Regs.read s.x idx) :=
  if_pos h

/-- A completed cycle: counted, every staged slot committed and emptied, both requests retired
(40_pipeline_cycle.md R128, R129). -/
theorem endCompleted_eq (s : State) :
    endCompleted s = .next { s.ended with
      acc := s.nextAcc.getD s.acc, x := commitRegs s.x s.nextX, st := s.nextSt.getD s.st, pc := s.nextPc.getD s.pc
      dmem := commitStore s.dmem s.stagedStore
      nextAcc := none, nextX := Regs.fill none, nextSt := none, nextPc := none, stagedStore := none } :=
  rfl

/-- A cycle that staged only the pc. -/
theorem endCompleted_nextPc (hq : s.Quiet) (p : Addr) :
    endCompleted { s with nextPc := some p } = .next { s.ended with pc := p } := by
  obtain ⟨hacc, hst, hx, hpc, hstore⟩ := hq
  simp [endCompleted_eq, State.ended, commitStore, hacc, hst, hx, hpc, hstore]

/-- A cycle that staged the accumulator and went on. -/
theorem endCompleted_setNextAcc (hq : s.Quiet) (v : Data) :
    endCompleted (s.setNextAcc v).increment = .next { s.ended with acc := v, pc := s.pc + 1 } := by
  obtain ⟨hacc, hst, hx, hpc, hstore⟩ := hq
  simp [endCompleted_eq, State.ended, State.setNextAcc, State.increment, commitStore, hacc, hst, hx, hpc, hstore]

/-- A cycle that staged one register and went on. -/
theorem endCompleted_setNextRegister (hq : s.Quiet) (idx : RegIdx) (v : Data) :
    endCompleted (s.setNextRegister idx v).increment =
      .next { s.ended with x := Regs.write s.x idx v, pc := s.pc + 1 } := by
  obtain ⟨hacc, hst, hx, hpc, hstore⟩ := hq
  simp [endCompleted_eq, State.ended, State.setNextRegister, State.increment, commitStore, commitRegs_write, hacc, hst,
    hx, hpc, hstore]

/-- A cycle that staged a store and went on. -/
theorem endCompleted_stagedStore (hq : s.Quiet) (a : Addr) (v : Data) :
    endCompleted (State.increment { s with stagedStore := some (a, v) }) =
      .next { s.ended with dmem := Memory.write s.dmem a v, pc := s.pc + 1 } := by
  obtain ⟨hacc, hst, hx, hpc, hstore⟩ := hq
  simp [endCompleted_eq, State.ended, State.increment, commitStore, hacc, hst, hx, hpc, hstore]

/-- SET (43_regfile_ops.md R170). -/
theorem execSet_quiet (hq : s.Quiet) (imm : Data) :
    exec (.set imm) s = .next { s.ended with acc := imm, pc := s.pc + 1 } :=
  endCompleted_setNextAcc hq imm

/-- GET of an existing register (43_regfile_ops.md R171). -/
theorem execGet_quiet (hq : s.Quiet) {idx : RegIdx} (h : idx.toNat < s.params.nreg) :
    exec (.get idx) s = .next { s.ended with acc := Regs.read s.x idx, pc := s.pc + 1 } := by
  simp only [exec, execGet, State.register_of_lt h, endCompleted_setNextAcc hq]

/-- PUT to an existing register (43_regfile_ops.md R172). -/
theorem execPut_quiet (hq : s.Quiet) {idx : RegIdx} (h : idx.toNat < s.params.nreg) :
    exec (.put idx) s = .next { s.ended with x := Regs.write s.x idx s.acc, pc := s.pc + 1 } := by
  simp only [exec, execPut, State.register_of_lt h, endCompleted_setNextRegister hq]

/-- LOAD with its port ready (44_memory_ops.md R180). -/
theorem execLoad_ready (hq : s.Quiet) (hw : s.loadWaits = 0) :
    exec .load s = .next { s.ended with acc := Memory.read s.dmem s.dmar, pc := s.pc + 1 } := by
  simp only [exec, execLoad, State.loadPort_ready hw]
  exact endCompleted_setNextAcc (s := { s with dmReq := some (.load s.dmar 0) }) hq _

/-- LOAD with its port waiting stalls, whatever is staged (44_memory_ops.md R180). -/
theorem execLoad_waiting {n : Nat} (hw : s.loadWaits = n + 1) :
    exec .load s = .next { s.stalledOnce with dmReq := some (.load s.dmar n) } := by
  simp only [exec, execLoad, State.loadPort_waiting hw]; rfl

/-- STORE with its port complete (44_memory_ops.md R181, 20_memory.md R73). -/
theorem execStore_ready (hq : s.Quiet) (hw : s.storeWaits = 0) :
    exec .store s = .next { s.ended with dmem := Memory.write s.dmem s.dmar s.acc, pc := s.pc + 1 } := by
  simp only [exec, execStore, State.storePort_ready hw]
  exact endCompleted_stagedStore (s := { s with dmReq := some (.store s.dmar s.acc 0) }) hq _ _

/-- STORE with its port waiting stalls, whatever is staged (44_memory_ops.md R181). -/
theorem execStore_waiting {n : Nat} (hw : s.storeWaits = n + 1) :
    exec .store s = .next { s.stalledOnce with dmReq := some (.store s.dmar s.acc n) } := by
  simp only [exec, execStore, State.storePort_waiting hw]; rfl

end Quiet

/-! ### The two families of instructions -/

section Families

variable {i : Instr} {s : State}

/-- Each ALU instruction is `aluOp` of a function and an operand B, and a well-formed one has its operand. -/
theorem exec_eq_aluOp (hi : isAluOp i = true) :
    ∃ f b, exec i = aluOp f b ∧
      ∀ s : State, i.wellFormed s.params.nreg = true → ∃ v, s.operandB b = some v := by
  have present (idx : RegIdx) (s : State) (h : RegIdx.present s.params.nreg idx = true) :
      ∃ v, s.operandB (.register idx) = some v :=
    ⟨_, State.register_of_lt (of_decide_eq_true h)⟩
  cases i with
  | addi imm => exact ⟨aluAdd, .immediate imm, rfl, fun _ _ => ⟨imm, rfl⟩⟩
  | subi imm => exact ⟨aluSub, .immediate imm, rfl, fun _ _ => ⟨imm, rfl⟩⟩
  | andi imm => exact ⟨aluAnd, .immediate imm, rfl, fun _ _ => ⟨imm, rfl⟩⟩
  | ori imm => exact ⟨aluOr, .immediate imm, rfl, fun _ _ => ⟨imm, rfl⟩⟩
  | xori imm => exact ⟨aluXor, .immediate imm, rfl, fun _ _ => ⟨imm, rfl⟩⟩
  | add idx => exact ⟨aluAdd, .register idx, rfl, present idx⟩
  | sub idx => exact ⟨aluSub, .register idx, rfl, present idx⟩
  | and idx => exact ⟨aluAnd, .register idx, rfl, present idx⟩
  | or idx => exact ⟨aluOr, .register idx, rfl, present idx⟩
  | xor idx => exact ⟨aluXor, .register idx, rfl, present idx⟩
  | _ => cases hi

/-- An ALU instruction whose operand exists commits an accumulator and a status (42_alu.md R145, R146). -/
theorem execAlu_quiet (hi : isAluOp i = true) (hw : i.wellFormed s.params.nreg = true) (hq : s.Quiet) :
    ∃ acc st, exec i s = .next { s.ended with acc := acc, st := st, pc := s.pc + 1 } := by
  obtain ⟨f, b, hexec, hb⟩ := exec_eq_aluOp hi
  obtain ⟨v, hv⟩ := hb s hw
  exact ⟨_, _, (congrFun hexec s).trans (aluOp_quiet hq hv)⟩

/-- A branch or jump stages a pc and nothing else (45_control_transfer.md R191 to R198). -/
theorem exec_eq_stagePc (hi : isTransfer i = true) (s : State) :
    ∃ p, exec i s = endCompleted { s with nextPc := some p } := by
  cases i with
  | bcc target => exact ⟨if condCarryClear s.st then target else s.pc + 1, rfl⟩
  | bcs target => exact ⟨if condCarrySet s.st then target else s.pc + 1, rfl⟩
  | bvc target => exact ⟨if condOverflowClear s.st then target else s.pc + 1, rfl⟩
  | bvs target => exact ⟨if condOverflowSet s.st then target else s.pc + 1, rfl⟩
  | jmpi offset => exact ⟨s.pc + offset, rfl⟩
  | jmpr => exact ⟨s.pc + s.imar, rfl⟩
  | jmpa => exact ⟨s.imar, rfl⟩
  | _ => cases hi

end Families

/-! ### Everything an instruction can answer, from any state -/

section ExecCases

variable {i : Instr} {s t u : State}

/-- `u` is `s` but for its staged slots and the data port's request: all that Execute, Memory-access and PC-update write
(40_pipeline_cycle.md R125 to R127). -/
def State.StagedFrom (s u : State) : Prop :=
  u = { s with
    nextAcc := u.nextAcc, nextX := u.nextX, nextSt := u.nextSt, nextPc := u.nextPc, stagedStore := u.stagedStore
    dmReq := u.dmReq }

theorem State.StagedFrom.halted (h : s.StagedFrom u) : u.halted = s.halted := (congrArg State.halted h :)

theorem State.StagedFrom.st (h : s.StagedFrom u) : u.st = s.st := (congrArg State.st h :)

/-- The three ends of a cycle that Decode did not end: committed, stalled or faulted (40_pipeline_cycle.md R121). -/
def State.EndsIn (u t : State) : Prop :=
  t = u.countCycle.commitPhase ∨ t = u.stall.countCycle ∨ ∃ k, t = u.raise k

/-- No end of such a cycle sets `halted`. -/
theorem State.EndsIn.halted (h : u.EndsIn t) : t.halted = u.halted := by
  obtain rfl | rfl | ⟨k, rfl⟩ := h <;> simp

/-- A cycle that staged no status ends with the committed one. -/
theorem State.EndsIn.st (h : u.EndsIn t) (hst : u.nextSt = none) : t.st = u.st := by
  obtain rfl | rfl | ⟨k, rfl⟩ := h <;> simp [hst]

theorem endCompleted_endsIn (h : endCompleted u = .next t) : u.EndsIn t :=
  .inl (Host.Outcome.next.inj h).symm

theorem endStalled_endsIn (h : endStalled u = .next t) : u.EndsIn t :=
  .inr (.inl (Host.Outcome.next.inj h).symm)

theorem endFaulted_endsIn {k : FaultKind} (h : endFaulted u k = .next t) : u.EndsIn t :=
  .inr (.inr ⟨k, (Host.Outcome.next.inj h).symm⟩)

/-- An ALU op stages and completes, or faults on a missing register. -/
theorem aluOp_cases {f : Data → Data → AluResult} {b : OperandB} (h : aluOp f b s = .next t) :
    ∃ u, u.EndsIn t ∧ s.StagedFrom u := by
  cases b with
  | immediate imm => exact ⟨_, endCompleted_endsIn h, rfl⟩
  | register idx =>
    simp only [aluOp] at h
    split at h
    · exact ⟨_, endCompleted_endsIn h, rfl⟩
    · exact ⟨_, endFaulted_endsIn h, rfl⟩

/-- Everything an instruction that answers a next state can have done: HALT halts; any other stages and makes a data request,
a status only if it is an ALU instruction, and then the cycle ends in one of the three ways. -/
theorem exec_cases (h : exec i s = .next t) :
    (i = .halt ∧ t = s.halt.countCycle) ∨
      (i ≠ .halt ∧ ∃ u, u.EndsIn t ∧ s.StagedFrom u ∧ (isAluOp i = false → u.nextSt = s.nextSt)) := by
  cases ha : isAluOp i with
  | true =>
    obtain ⟨f, b, hexec, -⟩ := exec_eq_aluOp ha
    obtain ⟨u, hend, hu⟩ := aluOp_cases ((congrFun hexec s).symm.trans h)
    exact .inr ⟨(by rintro rfl; cases ha), u, hend, hu, nofun⟩
  | false =>
    cases ht : isTransfer i with
    | true =>
      obtain ⟨p, hexec⟩ := exec_eq_stagePc ht s
      exact .inr ⟨(by rintro rfl; cases ht), _, endCompleted_endsIn (hexec.symm.trans h), rfl, fun _ => rfl⟩
    | false =>
      cases i with
      | halt => exact .inl ⟨rfl, (Host.Outcome.next.inj h).symm⟩
      | set imm => exact .inr ⟨nofun, _, endCompleted_endsIn h, rfl, fun _ => rfl⟩
      | get idx =>
        simp only [exec, execGet] at h
        split at h
        · exact .inr ⟨nofun, _, endCompleted_endsIn h, rfl, fun _ => rfl⟩
        · exact .inr ⟨nofun, _, endFaulted_endsIn h, rfl, fun _ => rfl⟩
      | put idx =>
        simp only [exec, execPut] at h
        split at h
        · exact .inr ⟨nofun, _, endCompleted_endsIn h, rfl, fun _ => rfl⟩
        · exact .inr ⟨nofun, _, endFaulted_endsIn h, rfl, fun _ => rfl⟩
      | load =>
        simp only [exec, execLoad] at h
        cases hw : s.loadWaits with
        | zero =>
          rw [State.loadPort_ready hw] at h
          exact .inr ⟨nofun, _, endCompleted_endsIn h, rfl, fun _ => rfl⟩
        | succ n =>
          rw [State.loadPort_waiting hw] at h
          exact .inr ⟨nofun, _, endStalled_endsIn h, rfl, fun _ => rfl⟩
      | store =>
        simp only [exec, execStore] at h
        cases hw : s.storeWaits with
        | zero =>
          rw [State.storePort_ready hw] at h
          exact .inr ⟨nofun, _, endCompleted_endsIn h, rfl, fun _ => rfl⟩
        | succ n =>
          rw [State.storePort_waiting hw] at h
          exact .inr ⟨nofun, _, endStalled_endsIn h, rfl, fun _ => rfl⟩
      | addi | subi | andi | ori | xori | add | sub | and | or | xor => cases ha
      | bcc | bcs | bvc | bvs | jmpi | jmpr | jmpa => cases ht

/-- An instruction other than HALT leaves `halted` as it was (10_state.md R32). -/
theorem exec_halted_of_ne_halt (h : exec i s = .next t) (hi : i ≠ .halt) : t.halted = s.halted := by
  obtain ⟨rfl, -⟩ | ⟨-, u, hend, hu, -⟩ := exec_cases h
  · exact absurd rfl hi
  · exact hend.halted.trans hu.halted

/-- An instruction that is no ALU op leaves the status register as it was (10_state.md R23). -/
theorem exec_st_of_not_isAluOp (h : exec i s = .next t) (hi : isAluOp i = false) (hst : s.nextSt = none) :
    t.st = s.st := by
  obtain ⟨-, rfl⟩ | ⟨-, u, hend, hu, hkeep⟩ := exec_cases h
  · rfl
  · exact (hend.st ((hkeep hi).trans hst)).trans hu.st

end ExecCases

/-! ### The state right after reset (10_state.md R42) -/

section Reset

variable {p : Params}

/-- A finite counter of sound parameters has at least one bit. -/
theorem Params.cycleWidth_ne_zero (h : p.wf = true) : p.cycleWidth ≠ some 0 := by
  simp only [Params.wf, Bool.and_eq_true, decide_eq_true_eq] at h
  exact h.2

/-- A fresh machine of sound parameters can count a cycle, even with a finite counter. -/
theorem State.fresh_roomFor_one (h : p.wf = true) : (State.fresh p).roomFor 1 = true := by
  cases hw : p.cycleWidth with
  | none => exact State.roomFor_unbounded (s := State.fresh p) hw 1
  | some w =>
    have hpos : w ≠ 0 := by
      rintro rfl
      exact Params.cycleWidth_ne_zero h hw
    have hroom : 1 < 2 ^ w := Nat.one_lt_two_pow hpos
    simpa [State.roomFor, State.fresh, hw] using hroom

/-- A fresh machine meets the invariant: its memories are the parameters', and every other cell the invariant speaks of is
empty or clear. -/
theorem State.fresh_inv (h : p.wf = true) (hi : Memory.wf p.imemInit = true) (hd : Memory.wf p.dmemInit = true) :
    (State.fresh p).Inv where
  imem_wf := hi
  dmem_wf := hd
  params_wf := h
  count_fits := State.roomFor_mono (State.fresh_roomFor_one h) (Nat.zero_le 1)
  quiet := ⟨rfl, rfl, rfl, rfl, rfl⟩
  latch := rfl
  halted_only := nofun
  faulted_only := fun hf => absurd rfl hf
  fetch := ⟨rfl, rfl, rfl⟩
  data := trivial

end Reset

end Sys2Proof.Machine

namespace Sys2Proof.Claims

open Sys2Proof.Machine

/-- The frame of a completed cycle that committed only an accumulator, a status and a pc. -/
theorem ended_frame {s : State} (hq : s.Quiet) (acc : Data) (st : Status) (pc : Addr) :
    let t : State := { s.ended with acc := acc, st := st, pc := pc }
    KeepsRegisters s t ∧ KeepsDataMemory s t ∧ KeepsMachine s t ∧ t.stalled = s.stalled ∧ t.stallLatch = s.stallLatch ∧
      t.Quiet :=
  ⟨⟨fun _ => rfl, rfl, rfl⟩, fun _ => rfl, ⟨fun _ => rfl, rfl, rfl, rfl⟩, rfl, rfl, hq⟩

/-- The frame of a cycle that stalled in Memory-access. -/
theorem stalledOnce_frame {s : State} (hq : s.Quiet) (r : DataRequest) :
    let t : State := { s.stalledOnce with dmReq := some r }
    KeepsRegisters s t ∧ t.acc = s.acc ∧ t.st = s.st ∧ KeepsDataMemory s t ∧ KeepsMachine s t ∧ t.Quiet :=
  ⟨⟨fun _ => rfl, rfl, rfl⟩, rfl, rfl, fun _ => rfl, ⟨fun _ => rfl, rfl, rfl, rfl⟩, hq⟩

/-- Settles O10: an ALU instruction commits only an accumulator, a status and a pc. -/
theorem aluInstructionsFrame : Obligations.AluInstructionsFrame := by
  intro i s t hi hw hq h
  obtain ⟨acc, st, hexec⟩ := execAlu_quiet hi hw hq
  cases hexec.symm.trans h
  exact ended_frame hq acc st _

/-- Settles O14: SET and GET commit only an accumulator and a pc, PUT one register and a pc. -/
theorem registerFileInstructionsFrame : Obligations.RegisterFileInstructionsFrame := by
  intro s t idx imm hq hidx
  refine ⟨fun h => ?_, fun h => ?_⟩
  · obtain ⟨v, rfl⟩ : ∃ v, t = { s.ended with acc := v, pc := s.pc + 1 } := by
      rcases h with hset | hget
      · exact ⟨imm, Host.Outcome.next.inj (hset.symm.trans (execSet_quiet hq imm))⟩
      · exact ⟨_, Host.Outcome.next.inj (hget.symm.trans (execGet_quiet hq hidx))⟩
    obtain ⟨hregs, hmem, hrest⟩ := ended_frame hq v s.st (s.pc + 1)
    exact ⟨hregs, rfl, hmem, hrest⟩
  · cases (execPut_quiet hq hidx).symm.trans h
    refine ⟨fun j hj => ?_, rfl, rfl, fun _ => rfl, ⟨fun _ => rfl, rfl, rfl, rfl⟩, rfl, rfl, hq⟩
    exact (Regs.read_write s.x idx j s.acc).trans (if_neg hj)

/-- Settles O19: a case split on whether the port still waits; a completed STORE is the memory law of one write. -/
theorem memoryInstructionsFrame : Obligations.MemoryInstructionsFrame := by
  intro s t hq hwf
  refine ⟨fun h => ?_, fun h => ?_⟩
  · cases hw : s.loadWaits with
    | zero =>
      cases (execLoad_ready hq hw).symm.trans h
      obtain ⟨hregs, hmem, hmachine, -, -, hquiet⟩ := ended_frame hq (Memory.read s.dmem s.dmar) s.st (s.pc + 1)
      exact ⟨hregs, rfl, hmem, hmachine, hquiet⟩
    | succ n =>
      cases (execLoad_waiting hw).symm.trans h
      obtain ⟨hregs, -, hrest⟩ := stalledOnce_frame hq (.load s.dmar n)
      exact ⟨hregs, hrest⟩
  · cases hw : s.storeWaits with
    | zero =>
      cases (execStore_ready hq hw).symm.trans h
      refine ⟨⟨fun _ => rfl, rfl, rfl⟩, rfl, rfl, fun a ha => ?_, ⟨fun _ => rfl, rfl, rfl, rfl⟩, hq⟩
      exact (Memory.read_write hwf s.dmar a s.acc).trans (if_neg ha)
    | succ n =>
      cases (execStore_waiting hw).symm.trans h
      obtain ⟨hregs, hacc, hst, hmem, hrest⟩ := stalledOnce_frame hq (.store s.dmar s.acc n)
      exact ⟨hregs, hacc, hst, fun a _ => hmem a, hrest⟩

/-- Settles O24: a branch or jump stages only a pc. -/
theorem controlTransferFrame : Obligations.ControlTransferFrame := by
  intro i s t hi hq h
  obtain ⟨p, hexec⟩ := exec_eq_stagePc hi s
  cases (hexec.trans (endCompleted_nextPc hq p)).symm.trans h
  exact ⟨rfl, rfl, ended_frame hq s.acc s.st p⟩

/-- Settles O32: among all a step can do, only a fetched HALT sets `halted`, and it commits nothing. -/
theorem haltedIsSetByHaltAndSticks : Obligations.HaltedIsSetByHaltAndSticks := by
  intro s
  refine ⟨fun hhalted t h => ?_, fun t h => ?_, rfl⟩
  · obtain ⟨⟨hrun, -, -⟩, -⟩ := step_cases h
    exact Bool.false_ne_true (hrun.symm.trans hhalted)
  · obtain ⟨⟨hrun, -, -⟩, ⟨n, hw, rfl⟩ | ⟨hw, why, hdec, rfl⟩ | ⟨hw, i, hdec, hexec⟩⟩ := step_cases h
    · simp [State.stalledOnce, hrun, hw]
    · simp [State.fetched, hrun, hdec]
    · by_cases hi : i = .halt
      · subst hi
        cases hexec
        exact ⟨⟨fun _ => ⟨hw, hdec⟩, fun _ => rfl⟩, fun _ => ⟨rfl, rfl, rfl, rfl, rfl, rfl, rfl⟩⟩
      · have hkeep : t.halted = false := (exec_halted_of_ne_halt hexec hi).trans hrun
        simp [hkeep, hdec, hi]

/-- Settles O33: no stall, fault or other instruction stages a status. -/
theorem statusIsWrittenByAluOpsOnly : Obligations.StatusIsWrittenByAluOpsOnly := by
  intro s t ⟨_, hst, _⟩ h hne
  obtain ⟨-, ⟨n, -, rfl⟩ | ⟨-, why, -, rfl⟩ | ⟨-, i, hdec, hexec⟩⟩ := step_cases h
  · exact absurd rfl hne
  · exact absurd rfl hne
  · refine ⟨i, hdec, ?_⟩
    by_contra hi
    exact hne (exec_st_of_not_isAluOp (s := s.fetched) hexec (Bool.eq_false_iff.mpr hi) hst)

/-- Settles O40: `reset()` makes a fresh machine of the same parameters. -/
theorem hostResetRestoresTheTable : Obligations.HostResetRestoresTheTable := by
  intro s hp hi hd
  exact ⟨State.fresh_inv hp hi hd, ⟨rfl, rfl, State.fresh_roomFor_one hp⟩, rfl, rfl, fun _ => rfl, rfl, rfl,
    fun _ => rfl, fun _ => rfl, rfl, rfl⟩

/-- Settles O39: `State.reset` is a fresh machine of the reference parameters, which are sound. -/
theorem invariantHoldsAtReset : Obligations.InvariantHoldsAtReset :=
  State.fresh_inv (by decide) rfl rfl

end Sys2Proof.Claims

/-!
# The data memory (20_memory.md)

What a commit makes of the data memory, and which instruction stages a store.
-/

namespace Sys2Proof.Machine

open Sys2Proof.Claims

section DataMemory

variable {i : Instr} {s t u : State}

/-- The data memory after its commit: the staged value at its address, the old word everywhere else (20_memory.md R73). -/
theorem State.read_commitDataMemory {W : Widths} {s : State W} (hwf : Memory.wf s.dmem W.addr = true) {a : W.Addr}
    {v : W.Data} (hs : s.stagedStore = some (a, v)) (b : W.Addr) :
    Memory.read s.commitDataMemory.dmem b = if b = a then v else Memory.read s.dmem b := by
  simpa [hs, commitStore] using Memory.read_write hwf a b v

/-- With nothing staged, the data memory's commit changes no word. -/
theorem State.commitDataMemory_dmem_of_none {W : Widths} {s : State W} (hs : s.stagedStore = none) :
    s.commitDataMemory.dmem = s.dmem := by
  simp [hs, commitStore]

/-- A cycle that staged no store ends with the data memory it had. -/
theorem State.EndsIn.dmem (h : u.EndsIn t) (hs : u.stagedStore = none) : t.dmem = u.dmem := by
  obtain rfl | rfl | ⟨k, rfl⟩ := h
  · exact State.commitDataMemory_dmem_of_none hs
  · rfl
  · rfl

/-- An ALU op stages no store (42_alu.md R145, R146). -/
theorem aluOp_dmem {f : Data → Data → AluResult} {b : OperandB} (h : aluOp f b s = .next t)
    (hs : s.stagedStore = none) : t.dmem = s.dmem := by
  cases b with
  | immediate imm => exact (endCompleted_endsIn h).dmem hs
  | register idx =>
    simp only [aluOp] at h
    split at h
    · exact (endCompleted_endsIn h).dmem hs
    · exact (endFaulted_endsIn h).dmem hs

/-- An instruction other than STORE stages no store, so it leaves the data memory as it was (20_memory.md R73). -/
theorem exec_dmem_of_ne_store (h : exec i s = .next t) (hi : i ≠ .store) (hs : s.stagedStore = none) :
    t.dmem = s.dmem := by
  cases ha : isAluOp i with
  | true =>
    obtain ⟨f, b, hexec, -⟩ := exec_eq_aluOp ha
    exact aluOp_dmem ((congrFun hexec s).symm.trans h) hs
  | false =>
    cases ht : isTransfer i with
    | true =>
      obtain ⟨p, hexec⟩ := exec_eq_stagePc ht s
      exact (endCompleted_endsIn (hexec.symm.trans h)).dmem hs
    | false =>
      cases i with
      | halt => cases h; rfl
      | set imm => exact (endCompleted_endsIn h).dmem hs
      | get idx =>
        simp only [exec, execGet] at h
        split at h
        · exact (endCompleted_endsIn h).dmem hs
        · exact (endFaulted_endsIn h).dmem hs
      | put idx =>
        simp only [exec, execPut] at h
        split at h
        · exact (endCompleted_endsIn h).dmem hs
        · exact (endFaulted_endsIn h).dmem hs
      | load =>
        simp only [exec, execLoad] at h
        cases hw : s.loadWaits with
        | zero =>
          rw [State.loadPort_ready hw] at h
          exact (endCompleted_endsIn h).dmem hs
        | succ n =>
          rw [State.loadPort_waiting hw] at h
          exact (endStalled_endsIn h).dmem hs
      | store => exact absurd rfl hi
      | addi | subi | andi | ori | xori | add | sub | and | or | xor => cases ha
      | bcc | bcs | bvc | bvs | jmpi | jmpr | jmpa => cases ht

/-- A STORE that changes the data memory has completed: it wrote the accumulator at `dmar` (44_memory_ops.md R181). -/
theorem execStore_dmem_of_ne (hq : s.Quiet) (h : exec .store s = .next t) (hne : t.dmem ≠ s.dmem) :
    t.dmem = Memory.write s.dmem s.dmar s.acc := by
  cases hw : s.storeWaits with
  | zero => cases (execStore_ready hq hw).symm.trans h; rfl
  | succ n => cases (execStore_waiting hw).symm.trans h; exact absurd rfl hne

/-- A step that changes the data memory is a completed STORE: a stalled fetch and a reserved word change no word, nor does
any other instruction. -/
theorem step_dmem_of_ne (hq : s.Quiet) (h : step s = .next t) (hne : t.dmem ≠ s.dmem) :
    decode s.wordAtPc = .instr .store ∧ t.dmem = Memory.write s.dmem s.dmar s.acc := by
  obtain ⟨-, ⟨n, -, rfl⟩ | ⟨-, why, -, rfl⟩ | ⟨-, i, hdec, hexec⟩⟩ := step_cases h
  · exact absurd rfl hne
  · exact absurd rfl hne
  · have ⟨_, _, _, _, hs⟩ := hq
    obtain rfl : i = .store := by
      by_contra hi
      exact hne (exec_dmem_of_ne_store (s := s.fetched) hexec hi hs)
    exact ⟨hdec, execStore_dmem_of_ne (s := s.fetched) hq hexec hne⟩

end DataMemory

end Sys2Proof.Machine

namespace Sys2Proof.Claims

open Sys2Proof.Machine

/-- Settles O48: the commit is the memory law of one write, a LOAD reads it back, and only a completed STORE stages one. -/
theorem dataMemoryChangesByStoreCommitOnly : Obligations.DataMemoryChangesByStoreCommitOnly := by
  intro s hwf
  refine ⟨fun a v hs => ⟨State.read_commitDataMemory hwf hs, ?_⟩, State.commitDataMemory_dmem_of_none, rfl, rfl, ?_⟩
  · rintro u hmem rfl hq hw
    have hread : Memory.read u.dmem u.dmar = v := by
      rw [hmem, State.read_commitDataMemory hwf hs, if_pos rfl]
    exact ⟨_, execLoad_ready hq hw, hread⟩
  · intro t hq h hne
    obtain ⟨hdec, hmem⟩ := step_dmem_of_ne hq h hne
    refine ⟨hdec, fun b => ?_⟩
    rw [hmem, Memory.read_write hwf]

end Sys2Proof.Claims

/-!
# Encoding and the opcode table (30_encoding.md part 2)

A word is `wordOf` of its fields, so a decoded word is the encoding of its instruction, and the bits a row's mask keeps
are the word's fields: the row's match word fixes `op`, `sub` and what of `arg` must be zero.
-/

namespace Sys2Proof

section Fields

variable {w : InstrWord} {op sub : BitVec 4} {arg : BitVec 8}

/-- A word with known fields. -/
theorem wordOf_eq_of_fields (hop : opField w = op) (hsub : subField w = sub) (harg : argField w = arg) :
    wordOf op sub arg = w := by
  subst hop hsub harg
  exact wordOf_fields w

theorem hiField_eq_extractLsb' (w : InstrWord) : hiField w = (argField w).extractLsb' 4 4 := by
  rw [← hi_append_idx]
  exact BitVec.extractLsb'_append_eq_left.symm

theorem idxField_eq_extractLsb' (w : InstrWord) : idxField w = (argField w).extractLsb' 0 4 := by
  rw [← hi_append_idx]
  exact BitVec.extractLsb'_append_eq_right.symm

@[simp] theorem hiField_wordOf_regArg (op sub : BitVec 4) (idx : RegIdx) :
    hiField (wordOf op sub (regArg idx)) = 0 := by
  rw [hiField_eq_extractLsb', argField_wordOf]
  exact BitVec.extractLsb'_append_eq_left

@[simp] theorem idxField_wordOf_regArg (op sub : BitVec 4) (idx : RegIdx) :
    idxField (wordOf op sub (regArg idx)) = idx := by
  rw [idxField_eq_extractLsb', argField_wordOf]
  exact BitVec.extractLsb'_append_eq_right

/-- A mask that keeps `op` and `sub` whole leaves those two fields and the masked argument. -/
theorem and_append_eq_wordOf (w : InstrWord) (m : BitVec 8) :
    w &&& ((0xFF : BitVec 8) ++ m) = wordOf (opField w) (subField w) (argField w &&& m) := by
  have hkeep : (opField w ++ subField w) &&& (0xFF : BitVec 8) = opField w ++ subField w := BitVec.and_allOnes
  calc w &&& ((0xFF : BitVec 8) ++ m)
      = wordOf (opField w) (subField w) (argField w) &&& ((0xFF : BitVec 8) ++ m) := by rw [wordOf_fields]
    _ = ((opField w ++ subField w) &&& (0xFF : BitVec 8)) ++ (argField w &&& m) := BitVec.and_append
    _ = wordOf (opField w) (subField w) (argField w &&& m) := by rw [hkeep]; rfl

/-- What such a mask and a match word with empty argument say of a word: its `op`, its `sub` and the argument bits
that must be zero (30_encoding.md R94, R96). -/
theorem fields_of_and_append (m : BitVec 8) (h : w &&& ((0xFF : BitVec 8) ++ m) = wordOf op sub 0) :
    opField w = op ∧ subField w = sub ∧ argField w &&& m = 0 := by
  rw [and_append_eq_wordOf] at h
  have hop := congrArg opField h
  have hsub := congrArg subField h
  have harg := congrArg argField h
  simp only [opField_wordOf, subField_wordOf, argField_wordOf] at hop hsub harg
  exact ⟨hop, hsub, harg⟩

/-- A word of an argument form's row is built of the row's fields and its own argument. -/
theorem wordOf_argField_of_mask (h : w &&& 0xFF00 = wordOf op sub 0) : wordOf op sub (argField w) = w := by
  obtain ⟨hop, hsub, -⟩ := fields_of_and_append 0 h
  exact wordOf_eq_of_fields hop hsub rfl

/-- A word of a register form's row is built of the row's fields and its own register index. -/
theorem wordOf_regArg_idxField_of_mask (h : w &&& 0xFFF0 = wordOf op sub 0) :
    wordOf op sub (regArg (idxField w)) = w := by
  obtain ⟨hop, hsub, hmask⟩ := fields_of_and_append 0xF0 h
  have hhi : hiField w = 0 := by
    have hall : hiField w &&& BitVec.extractLsb' 4 4 (0xF0 : BitVec 8) = hiField w := BitVec.and_allOnes
    rw [← hall, hiField_eq_extractLsb', ← BitVec.extractLsb'_and, hmask]
    rfl
  exact wordOf_eq_of_fields hop hsub (regArg_idxField hhi).symm

end Fields

section RoundTrip

variable {w : InstrWord} {i : Instr} {op : BitVec 4}

/-- Every instruction survives encoding and decoding (30_encoding.md R104). -/
theorem decode_encode (i : Instr) : decode (encode i) = .instr i := by
  cases i with
  | addi | subi | andi | ori | xori => simp [encode, decode, decodeAluImm]
  | add | sub | and | or | xor => simp [encode, decode, decodeAluReg]
  | set | jmpi => simp [encode, decode, decodeArgForm]
  | get | put => simp [encode, decode, decodeRegForm]
  | bcc | bcs | bvc | bvs => simp [encode, decode, decodeBranch]
  | load | store | jmpr | jmpa | halt => rfl

/-- A form that demands `c` and otherwise answers a reserved word decoded to `i` only with `c` met. -/
theorem Decoding.of_ite_eq_instr {c : Prop} [Decidable c] {j : Instr} {why : Reserved}
    (h : (if c then Decoding.instr j else .reserved why) = .instr i) : c ∧ j = i := by
  split at h
  case isTrue hc => exact ⟨hc, Decoding.instr.inj h⟩
  case isFalse => cases h

theorem encode_of_decodeAluImm (hop : opField w = 0x0) (h : decodeAluImm w = .instr i) : encode i = w := by
  unfold decodeAluImm at h
  split at h
  case h_6 => cases h
  all_goals
    rename_i hsub
    cases h
    exact wordOf_eq_of_fields hop (BitVec.eq_of_toNat_eq hsub) rfl

theorem encode_of_decodeAluReg (hop : opField w = 0x1) (h : decodeAluReg w = .instr i) : encode i = w := by
  unfold decodeAluReg at h
  split at h
  case h_6 => cases h
  all_goals
    rename_i hsub
    obtain ⟨hhi, rfl⟩ := Decoding.of_ite_eq_instr h
    exact wordOf_eq_of_fields hop (BitVec.eq_of_toNat_eq hsub) (regArg_idxField hhi).symm

theorem encode_of_decodeBranch (hop : opField w = 0x7) (h : decodeBranch w = .instr i) : encode i = w := by
  unfold decodeBranch at h
  split at h
  case h_5 => cases h
  all_goals
    rename_i hsub
    cases h
    exact wordOf_eq_of_fields hop (BitVec.eq_of_toNat_eq hsub) rfl

theorem encode_of_decodeArgForm {f : BitVec 8 → Instr} (hf : ∀ a, encode (f a) = wordOf op 0 a) (hop : opField w = op)
    (h : decodeArgForm w f = .instr i) : encode i = w := by
  obtain ⟨hsub, rfl⟩ := Decoding.of_ite_eq_instr h
  exact (hf _).trans (wordOf_eq_of_fields hop hsub rfl)

theorem encode_of_decodeRegForm {f : RegIdx → Instr} (hf : ∀ idx, encode (f idx) = wordOf op 0 (regArg idx))
    (hop : opField w = op) (h : decodeRegForm w f = .instr i) : encode i = w := by
  obtain ⟨⟨hsub, hhi⟩, rfl⟩ := Decoding.of_ite_eq_instr h
  exact (hf _).trans (wordOf_eq_of_fields hop hsub (regArg_idxField hhi).symm)

theorem encode_of_decodeBareForm {j : Instr} (hj : encode j = wordOf op 0 0) (hop : opField w = op)
    (h : decodeBareForm w j = .instr i) : encode i = w := by
  obtain ⟨⟨hsub, harg⟩, rfl⟩ := Decoding.of_ite_eq_instr h
  exact hj.trans (wordOf_eq_of_fields hop hsub harg)

/-- A word that is not reserved is the encoding of what it decodes to: no bit of it is dropped (30_encoding.md R104). -/
theorem encode_of_decode (h : decode w = .instr i) : encode i = w := by
  unfold decode at h
  split at h
  case h_1 hop => exact encode_of_decodeAluImm (BitVec.eq_of_toNat_eq hop) h
  case h_2 hop => exact encode_of_decodeAluReg (BitVec.eq_of_toNat_eq hop) h
  case h_8 hop => exact encode_of_decodeBranch (BitVec.eq_of_toNat_eq hop) h
  case h_3 hop => exact encode_of_decodeArgForm (op := 0x2) (fun _ => rfl) (BitVec.eq_of_toNat_eq hop) h
  case h_9 hop => exact encode_of_decodeArgForm (op := 0x8) (fun _ => rfl) (BitVec.eq_of_toNat_eq hop) h
  case h_4 hop => exact encode_of_decodeRegForm (op := 0x3) (fun _ => rfl) (BitVec.eq_of_toNat_eq hop) h
  case h_5 hop => exact encode_of_decodeRegForm (op := 0x4) (fun _ => rfl) (BitVec.eq_of_toNat_eq hop) h
  case h_6 hop => exact encode_of_decodeBareForm (op := 0x5) rfl (BitVec.eq_of_toNat_eq hop) h
  case h_7 hop => exact encode_of_decodeBareForm (op := 0x6) rfl (BitVec.eq_of_toNat_eq hop) h
  case h_10 hop => exact encode_of_decodeBareForm (op := 0x9) rfl (BitVec.eq_of_toNat_eq hop) h
  case h_11 hop => exact encode_of_decodeBareForm (op := 0xA) rfl (BitVec.eq_of_toNat_eq hop) h
  case h_12 hop => exact encode_of_decodeBareForm (op := 0xF) rfl (BitVec.eq_of_toNat_eq hop) h
  case h_13 => cases h

end RoundTrip

section Table

variable {w : InstrWord} {i : Instr}

/-- An encoded instruction carries its row's match word under its row's mask (30_encoding.md R96). -/
theorem encode_and_rowMask (i : Instr) : encode i &&& rowMask i = rowMatch i := by
  cases i with
  | addi | subi | andi | ori | xori | set | bcc | bcs | bvc | bvs | jmpi =>
    exact (Laws.TableRow.mask_arg _ _ _).trans rfl
  | add | sub | and | or | xor | get | put => exact (Laws.TableRow.mask_reg _ _ _).trans rfl
  | load | store | jmpr | jmpa | halt => rfl

/-- A word that matches a row encodes the row's instruction, with the word's own operand (30_encoding.md R95, R96). -/
theorem exists_encode_of_and_rowMask (h : w &&& rowMask i = rowMatch i) :
    ∃ j, encode j = w ∧ rowMatch j = rowMatch i ∧ rowMask j = rowMask i := by
  cases i with
  | addi => exact ⟨.addi (argField w), wordOf_argField_of_mask h, rfl, rfl⟩
  | subi => exact ⟨.subi (argField w), wordOf_argField_of_mask h, rfl, rfl⟩
  | andi => exact ⟨.andi (argField w), wordOf_argField_of_mask h, rfl, rfl⟩
  | ori => exact ⟨.ori (argField w), wordOf_argField_of_mask h, rfl, rfl⟩
  | xori => exact ⟨.xori (argField w), wordOf_argField_of_mask h, rfl, rfl⟩
  | add => exact ⟨.add (idxField w), wordOf_regArg_idxField_of_mask h, rfl, rfl⟩
  | sub => exact ⟨.sub (idxField w), wordOf_regArg_idxField_of_mask h, rfl, rfl⟩
  | and => exact ⟨.and (idxField w), wordOf_regArg_idxField_of_mask h, rfl, rfl⟩
  | or => exact ⟨.or (idxField w), wordOf_regArg_idxField_of_mask h, rfl, rfl⟩
  | xor => exact ⟨.xor (idxField w), wordOf_regArg_idxField_of_mask h, rfl, rfl⟩
  | set => exact ⟨.set (argField w), wordOf_argField_of_mask h, rfl, rfl⟩
  | get => exact ⟨.get (idxField w), wordOf_regArg_idxField_of_mask h, rfl, rfl⟩
  | put => exact ⟨.put (idxField w), wordOf_regArg_idxField_of_mask h, rfl, rfl⟩
  | bcc => exact ⟨.bcc (argField w), wordOf_argField_of_mask h, rfl, rfl⟩
  | bcs => exact ⟨.bcs (argField w), wordOf_argField_of_mask h, rfl, rfl⟩
  | bvc => exact ⟨.bvc (argField w), wordOf_argField_of_mask h, rfl, rfl⟩
  | bvs => exact ⟨.bvs (argField w), wordOf_argField_of_mask h, rfl, rfl⟩
  | jmpi => exact ⟨.jmpi (argField w), wordOf_argField_of_mask h, rfl, rfl⟩
  | load => exact ⟨.load, h.symm.trans BitVec.and_allOnes, rfl, rfl⟩
  | store => exact ⟨.store, h.symm.trans BitVec.and_allOnes, rfl, rfl⟩
  | jmpr => exact ⟨.jmpr, h.symm.trans BitVec.and_allOnes, rfl, rfl⟩
  | jmpa => exact ⟨.jmpa, h.symm.trans BitVec.and_allOnes, rfl, rfl⟩
  | halt => exact ⟨.halt, h.symm.trans BitVec.and_allOnes, rfl, rfl⟩

end Table

end Sys2Proof

namespace Sys2Proof.Claims

/-- Settles O3: a word decodes to `i` only if it is `encode i`, and it matches a row only if it encodes an instruction of
that row. -/
theorem decodeAgreesWithOpcodeTable : Obligations.DecodeAgreesWithOpcodeTable := by
  intro w i
  refine ⟨fun h => ?_, fun h => ?_⟩
  · rw [← encode_of_decode h]
    exact encode_and_rowMask i
  · obtain ⟨j, rfl, hmatch, hmask⟩ := exists_encode_of_and_rowMask h
    exact ⟨j, decode_encode j, hmatch, hmask⟩

/-- Settles O5: each word is the encoding of its instruction. -/
theorem writtenWordsDecode : Obligations.WrittenWordsDecode :=
  ⟨decode_encode (.addi 0x55), decode_encode (.xor 15), decode_encode (.set 5), decode_encode (.get 3),
    decode_encode (.put 14), decode_encode .load, decode_encode .store, decode_encode (.bvs 0x20),
    decode_encode (.jmpi 0xFE), decode_encode .jmpr, decode_encode .jmpa, decode_encode .halt⟩

end Sys2Proof.Claims

/-!
# The pipeline cycle (40_pipeline_cycle.md)

How a cycle of the stage sequencer can end, for any widths and collaborators, and what its stages do on two machines that
differ only in their staged slots.
-/

namespace Sys2Proof.Machine

section CycleEnds

variable {W : Widths} {c : Collaborators W} {d : DecodeAnswer W} {s u : State W}

/-- The not-ready answers a decoded record still meets in Memory-access, which only memory ops poll
(40_pipeline_cycle.md R126). -/
def State.dataWaits (s : State W) : DecodeAnswer W → Nat
  | .record .memLoad => s.loadWaits
  | .record .memStore => s.storeWaits
  | _ => 0

theorem State.dataWaits_ne_zero_iff (d : DecodeAnswer W) :
    s.dataWaits d ≠ 0 ↔
      (d = .record .memLoad ∧ s.loadWaits ≠ 0) ∨ (d = .record .memStore ∧ s.storeWaits ≠ 0) := by
  unfold State.dataWaits
  split <;> simp_all

/-- Neither a committed value nor a staged slot has changed. -/
def State.SameValues (s u : State W) : Prop := s.SameCommitted u ∧ s.SameStaged u

theorem State.sameCommitted_refl (s : State W) : s.SameCommitted s := ⟨rfl, rfl, rfl, rfl, rfl, rfl⟩

theorem State.sameStaged_refl (s : State W) : s.SameStaged s := ⟨rfl, rfl, rfl, rfl, rfl⟩

theorem State.sameValues_refl (s : State W) : s.SameValues s := ⟨s.sameCommitted_refl, s.sameStaged_refl⟩

/-! ### Memory-access by what its port answers (44_memory_ops.md R180, R181) -/

theorem memoryStage_load_ready (hw : s.loadWaits = 0) :
    memoryStage s (.record .memLoad) =
      .proceed (State.setNextAcc { s with dmReq := some (.load s.dmar 0) } (Memory.read s.dmem s.dmar)) := by
  simp only [memoryStage, State.loadPort_ready hw]

theorem memoryStage_load_waiting {n : Nat} (hw : s.loadWaits = n + 1) :
    memoryStage s (.record .memLoad) = .stall { s with dmReq := some (.load s.dmar n) } := by
  simp only [memoryStage, State.loadPort_waiting hw]

theorem memoryStage_store_ready (hw : s.storeWaits = 0) :
    memoryStage s (.record .memStore) =
      .proceed { s with dmReq := some (.store s.dmar s.acc 0), stagedStore := some (s.dmar, s.acc) } := by
  simp only [memoryStage, State.storePort_ready hw]

theorem memoryStage_store_waiting {n : Nat} (hw : s.storeWaits = n + 1) :
    memoryStage s (.record .memStore) = .stall { s with dmReq := some (.store s.dmar s.acc n) } := by
  simp only [memoryStage, State.storePort_waiting hw]

/-! ### The ends of a cycle -/

/-- A record that passes through Execute, as a LOAD or STORE does; a stall in Memory-access ends the cycle there. -/
theorem afterDecode_of_stall (he : executeStage c s d = .proceed s) (hm : memoryStage s d = .stall u) :
    afterDecode c d s = (.stalled, u.stall) := by
  simp only [afterDecode, he, hm]

/-- A record that passes through Execute and does not stall in Memory-access goes on to the next address. -/
theorem afterDecode_of_proceed (he : executeStage c s d = .proceed s) (hm : memoryStage s d = .proceed u)
    (hp : pcUpdateStage c u d = .proceed u.increment) : afterDecode c d s = (.completed, u.increment) := by
  simp only [afterDecode, he, hm, hp]

/-- How the stages after Decode can end: they stall exactly when a data port waits, and otherwise fault or complete; a stall
or a fault has changed no value (40_pipeline_cycle.md R121, R125 to R127). -/
theorem afterDecode_cases (c : Collaborators W) (d : DecodeAnswer W) (s : State W) :
    (s.dataWaits d ≠ 0 ∧ ∃ u, afterDecode c d s = (.stalled, u) ∧ s.SameValues u) ∨
      (s.dataWaits d = 0 ∧
        ((∃ k, afterDecode c d s = (.fault k, s.raise k)) ∨ ∃ u, afterDecode c d s = (.completed, u))) := by
  cases d with
  | reserved => exact .inr ⟨rfl, .inr ⟨_, rfl⟩⟩
  | unknown sub => cases sub <;> exact .inr ⟨rfl, .inl ⟨_, rfl⟩⟩
  | record r =>
    cases r with
    | memLoad =>
      cases hw : s.loadWaits with
      | zero => exact .inr ⟨hw, .inr ⟨_, afterDecode_of_proceed rfl (memoryStage_load_ready hw) rfl⟩⟩
      | succ n =>
        exact .inl ⟨ne_of_eq_of_ne hw nofun, _, afterDecode_of_stall rfl (memoryStage_load_waiting hw), s.sameValues_refl⟩
    | memStore =>
      cases hw : s.storeWaits with
      | zero => exact .inr ⟨hw, .inr ⟨_, afterDecode_of_proceed rfl (memoryStage_store_ready hw) rfl⟩⟩
      | succ n =>
        exact .inl ⟨ne_of_eq_of_ne hw nofun, _, afterDecode_of_stall rfl (memoryStage_store_waiting hw), s.sameValues_refl⟩
    | aluReg func idx | rfGet idx | rfPut idx =>
      cases hr : s.register idx with
      | none => exact .inr ⟨rfl, .inl ⟨.badRegisterIndex idx, by simp only [afterDecode, executeStage, hr]⟩⟩
      | some v =>
        refine .inr ⟨rfl, .inr ?_⟩
        simp only [afterDecode, executeStage, hr, memoryStage, pcUpdateStage]
        exact ⟨_, rfl⟩
    | aluImm | rfSet | branch | jumpImmRel | jumpRegRel | jumpRegAbs | halt => exact .inr ⟨rfl, .inr ⟨_, rfl⟩⟩

/-- The four ends of a cycle and when each comes; only a cycle that completes can have changed a value
(40_pipeline_cycle.md R121, R123, R124). -/
theorem cycle_cases (c : Collaborators W) (s : State W) :
    ((cycle c s).1 = .stalled ∧ (s.fetchWaits ≠ 0 ∨ s.dataWaits (c.decode s.wordAtPc) ≠ 0) ∧
        s.SameValues (cycle c s).2) ∨
      ((cycle c s).1 = .halted ∧ s.fetchWaits = 0 ∧ c.decode s.wordAtPc = .record .halt ∧
        s.SameValues (cycle c s).2) ∨
      (s.fetchWaits = 0 ∧ s.dataWaits (c.decode s.wordAtPc) = 0 ∧ c.decode s.wordAtPc ≠ .record .halt ∧
        ((∃ k, (cycle c s).1 = .fault k ∧ s.SameValues (cycle c s).2) ∨ (cycle c s).1 = .completed)) := by
  cases hw : s.fetchWaits with
  | succ n => exact .inl (by rw [cycle_waiting hw]; exact ⟨rfl, .inl nofun, s.sameValues_refl⟩)
  | zero =>
    rw [cycle_ready hw]
    split
    next hd => exact .inr (.inr ⟨rfl, by rw [hd]; rfl, by rw [hd]; nofun, .inl ⟨_, rfl, s.sameValues_refl⟩⟩)
    next hd => exact .inr (.inl ⟨rfl, rfl, hd, s.sameValues_refl⟩)
    next hhalt =>
      obtain ⟨hdata, u, hend, hsame⟩ | ⟨hdata, ⟨k, hend⟩ | ⟨u, hend⟩⟩ :=
        afterDecode_cases c (c.decode s.wordAtPc) s.fetched
      · rw [hend]; exact .inl ⟨rfl, .inr hdata, hsame⟩
      · rw [hend]; exact .inr (.inr ⟨rfl, hdata, hhalt, .inl ⟨k, rfl, s.sameValues_refl⟩⟩)
      · rw [hend]; exact .inr (.inr ⟨rfl, hdata, hhalt, .inr rfl⟩)

/-- A cycle stalls exactly when one of its ports waits. -/
theorem cycle_stalled_iff :
    (cycle c s).1 = .stalled ↔ s.fetchWaits ≠ 0 ∨ s.dataWaits (c.decode s.wordAtPc) ≠ 0 := by
  obtain ⟨ho, hwaits, -⟩ | ⟨ho, hfetch, hd, -⟩ | ⟨hfetch, hdata, -, ⟨k, ho, -⟩ | ho⟩ := cycle_cases c s
  · simp only [ho, hwaits]
  · simp [ho, hfetch, hd, State.dataWaits]
  · simp [ho, hfetch, hdata]
  · simp [ho, hfetch, hdata]

/-- A cycle halts exactly when its ready fetch decodes to a halt. -/
theorem cycle_halted_iff :
    (cycle c s).1 = .halted ↔ s.fetchWaits = 0 ∧ c.decode s.wordAtPc = .record .halt := by
  obtain ⟨ho, hwaits, -⟩ | ⟨ho, hfetch, hd, -⟩ | ⟨-, -, hd, ⟨k, ho, -⟩ | ho⟩ := cycle_cases c s
  · have hno : ¬(s.fetchWaits = 0 ∧ c.decode s.wordAtPc = .record .halt) := by
      rintro ⟨hfetch, hd⟩
      simp [hfetch, hd, State.dataWaits] at hwaits
    simp [ho, hno]
  · simp [ho, hfetch, hd]
  · simp [ho, hd]
  · simp [ho, hd]

/-- A cycle that does not complete has changed no value. -/
theorem cycle_sameValues (h : (cycle c s).1 ≠ .completed) : s.SameValues (cycle c s).2 := by
  obtain ⟨-, -, hsame⟩ | ⟨-, -, -, hsame⟩ | ⟨-, -, -, ⟨k, -, hsame⟩ | ho⟩ := cycle_cases c s
  · exact hsame
  · exact hsame
  · exact hsame
  · exact absurd ho h

/-- An iteration whose cycle did not complete at most counts it. -/
theorem iterate_of_not_completed (h : (cycle c s).1 ≠ .completed) :
    (iterate c s).2 = (cycle c s).2 ∨ (iterate c s).2 = (cycle c s).2.countCycle := by
  unfold iterate
  rcases hc : cycle c s with ⟨_ | _ | _ | k, u⟩
  · exact absurd (congrArg Prod.fst hc) h
  · exact .inr rfl
  · exact .inr rfl
  · exact .inl rfl

/-- An iteration whose cycle completed counts it and runs the commit phase (40_pipeline_cycle.md R129, R132). -/
theorem iterate_of_completed (h : (cycle c s).1 = .completed) :
    (iterate c s).2 = (cycle c s).2.countCycle.commitPhase := by
  unfold iterate
  rcases hc : cycle c s with ⟨_ | _ | _ | k, u⟩
  · rfl
  all_goals exact absurd ((congrArg Prod.fst hc).symm.trans h) nofun

/-- Counting changes no value, so neither does the iteration of a cycle that does not complete (46_run_loop.md R210). -/
theorem iterate_sameValues (h : (cycle c s).1 ≠ .completed) : s.SameValues (iterate c s).2 := by
  obtain hi | hi := iterate_of_not_completed h
  · rw [hi]; exact cycle_sameValues h
  · rw [hi]; exact cycle_sameValues h

end CycleEnds

section StageFrames

variable {W : Widths} {c : Collaborators W} {d : DecodeAnswer W} {s t : State W}

/-- Execute only stages. -/
theorem executeStage_committed (h : executeStage c s d = .proceed t) : s.SameCommitted t ∧ t.params = s.params := by
  cases d with
  | reserved => cases h; exact ⟨s.sameCommitted_refl, rfl⟩
  | unknown sub => cases sub <;> cases h <;> exact ⟨s.sameCommitted_refl, rfl⟩
  | record r =>
    cases r with
    | aluReg | rfGet | rfPut =>
      simp only [executeStage] at h
      split at h
      · cases h; exact ⟨s.sameCommitted_refl, rfl⟩
      · cases h
    | _ => cases h; exact ⟨s.sameCommitted_refl, rfl⟩

/-- Memory-access only stages and makes a data request. -/
theorem memoryStage_committed (h : memoryStage s d = .proceed t) : s.SameCommitted t ∧ t.params = s.params := by
  cases d with
  | reserved => cases h; exact ⟨s.sameCommitted_refl, rfl⟩
  | unknown sub => cases sub <;> cases h <;> exact ⟨s.sameCommitted_refl, rfl⟩
  | record r =>
    cases r with
    | memLoad =>
      cases hw : s.loadWaits with
      | zero => cases (memoryStage_load_ready hw).symm.trans h; exact ⟨s.sameCommitted_refl, rfl⟩
      | succ n => cases (memoryStage_load_waiting hw).symm.trans h
    | memStore =>
      cases hw : s.storeWaits with
      | zero => cases (memoryStage_store_ready hw).symm.trans h; exact ⟨s.sameCommitted_refl, rfl⟩
      | succ n => cases (memoryStage_store_waiting hw).symm.trans h
    | _ => cases h; exact ⟨s.sameCommitted_refl, rfl⟩

/-- PC-update only stages a pc. -/
theorem pcUpdateStage_committed (h : pcUpdateStage c s d = .proceed t) : s.SameCommitted t ∧ t.params = s.params := by
  cases d with
  | reserved => cases h; exact ⟨s.sameCommitted_refl, rfl⟩
  | unknown sub => cases sub <;> cases h <;> exact ⟨s.sameCommitted_refl, rfl⟩
  | record r => cases r <;> cases h <;> exact ⟨s.sameCommitted_refl, rfl⟩

/-- What an instruction reads of the registers is a view of the committed ones (10_state.md R22, R24, R25). -/
theorem State.SameCommitted.reads (h : s.SameCommitted t) (hp : t.params = s.params) :
    (∀ i, t.register i = s.register i) ∧ t.dmar = s.dmar ∧ t.imar = s.imar := by
  obtain ⟨-, hx, -⟩ := h
  exact ⟨fun i => by simp only [State.register, hx, hp], State.dmar_of_x hx hp, State.imar_of_x hx hp⟩

end StageFrames

section PutGet

variable {s t : State} {idx : RegIdx}

/-- A step that fetches a PUT to an existing register (43_regfile_ops.md R172). -/
theorem step_put (hrun : s.CanRun) (hq : s.Quiet) (hidx : idx.toNat < s.params.nreg) (hw : s.fetchWaits = 0)
    (hdec : decode s.wordAtPc = .instr (.put idx)) :
    step s = .next { s.fetched.ended with x := Regs.write s.x idx s.acc, pc := s.pc + 1 } := by
  rw [step_ready hrun hw, hdec]
  exact execPut_quiet (s := s.fetched) hq hidx

/-- A step that fetches a GET of an existing register (43_regfile_ops.md R171). -/
theorem step_get (hrun : s.CanRun) (hq : s.Quiet) (hidx : idx.toNat < s.params.nreg) (hw : s.fetchWaits = 0)
    (hdec : decode s.wordAtPc = .instr (.get idx)) :
    step s = .next { s.fetched.ended with acc := Regs.read s.x idx, pc := s.pc + 1 } := by
  rw [step_ready hrun hw, hdec]
  exact execGet_quiet (s := s.fetched) hq hidx

end PutGet

end Sys2Proof.Machine

namespace Sys2Proof.Claims

open Sys2Proof.Machine

section Alike

variable {W : Widths} {s t s' t' s'' t'' : State W}

/-- A slot left alone in both. -/
theorem SlotAlike.kept {α : Type} {a b : α} : SlotAlike a b a b := .inl ⟨rfl, rfl⟩

theorem SlotAlike.trans {α : Type} {a b a' b' a'' b'' : α} (h : SlotAlike a b a' b') (h' : SlotAlike a' b' a'' b'') :
    SlotAlike a b a'' b'' := by
  obtain ⟨rfl, rfl⟩ | h' := h'
  · exact h
  · exact .inr h'

theorem StagedAlike.butStaged (h : StagedAlike s t s' t') : ButStaged s' t' := h.1

/-- Two acts in a row, each done alike. -/
theorem StagedAlike.trans (h : StagedAlike s t s' t') (h' : StagedAlike s' t' s'' t'') : StagedAlike s t s'' t'' := by
  obtain ⟨-, hacc, hx, hst, hpc, hstore⟩ := h
  obtain ⟨hbut, hacc', hx', hst', hpc', hstore'⟩ := h'
  exact ⟨hbut, hacc.trans hacc', fun i => (hx i).trans (hx' i), hst.trans hst', hpc.trans hpc', hstore.trans hstore'⟩

/-- An act that left every slot alone. -/
theorem ButStaged.alike_of_sameStaged (h : ButStaged s' t') (hs : s.SameStaged s') (ht : t.SameStaged t') :
    StagedAlike s t s' t' := by
  obtain ⟨hacc, hx, hst, hpc, hstore⟩ := hs
  obtain ⟨hacc', hx', hst', hpc', hstore'⟩ := ht
  exact ⟨h, .inl ⟨hacc, hacc'⟩, fun i => .inl ⟨by rw [hx], by rw [hx']⟩, .inl ⟨hst, hst'⟩, .inl ⟨hpc, hpc'⟩,
    .inl ⟨hstore, hstore'⟩⟩

end Alike

section OneSlot

variable {W : Widths} {s t : State W} (h : ButStaged s t)
include h

/-- `t` as an update of `s`: substituted for `t`, it makes whatever a stage reads of `t` the same term as what it reads of
`s`. -/
theorem ButStaged.exists_eq :
    ∃ acc x st pc store, t = { s with
      nextAcc := acc, nextX := x, nextSt := st, nextPc := pc, stagedStore := store } :=
  ⟨_, _, _, _, _, h⟩

theorem ButStaged.register (i : W.Idx) : t.register i = s.register i := (congrArg (·.register i) h :)

theorem ButStaged.fetchWaits : t.fetchWaits = s.fetchWaits := (congrArg State.fetchWaits h :)

theorem ButStaged.loadWaits : t.loadWaits = s.loadWaits := (congrArg State.loadWaits h :)

theorem ButStaged.storeWaits : t.storeWaits = s.storeWaits := (congrArg State.storeWaits h :)

/-! Each staging operation newly stages the same in both, and leaves every other slot alone. -/

theorem ButStaged.setNextAcc (v : W.Data) : StagedAlike s t (s.setNextAcc v) (t.setNextAcc v) :=
  ⟨(congrArg (·.setNextAcc v) h :), .inr rfl, fun _ => .kept, .kept, .kept, .kept⟩

theorem ButStaged.setNextStatus (o b : Bool) : StagedAlike s t (s.setNextStatus o b) (t.setNextStatus o b) :=
  ⟨(congrArg (·.setNextStatus o b) h :), .kept, fun _ => .kept, .inr rfl, .kept, .kept⟩

theorem ButStaged.setNextRegister (idx : W.Idx) (v : W.Data) :
    StagedAlike s t (s.setNextRegister idx v) (t.setNextRegister idx v) := by
  refine ⟨(congrArg (·.setNextRegister idx v) h :), .kept, fun i => ?_, .kept, .kept, .kept⟩
  simp only [State.setNextRegister_nextX, Regs.read_write]
  split
  · exact .inr rfl
  · exact .kept

theorem ButStaged.nextPc (p : W.Addr) : StagedAlike s t { s with nextPc := some p } { t with nextPc := some p } :=
  ⟨(congrArg (fun u : State W => { u with nextPc := some p }) h :), .kept, fun _ => .kept, .kept,
    .inr rfl, .kept⟩

theorem ButStaged.stagedStore (a : W.Addr) (v : W.Data) :
    StagedAlike s t { s with stagedStore := some (a, v) } { t with stagedStore := some (a, v) } :=
  ⟨(congrArg (fun u : State W => { u with stagedStore := some (a, v) }) h :), .kept, fun _ => .kept, .kept, .kept, .inr rfl⟩

theorem ButStaged.stageAlu (r : AluResult W.data) : StagedAlike s t (s.stageAlu r) (t.stageAlu r) :=
  (h.setNextAcc r.result).trans ((h.setNextAcc r.result).butStaged.setNextStatus r.v r.c)

theorem ButStaged.alike_refl : StagedAlike s t s t :=
  h.alike_of_sameStaged s.sameStaged_refl t.sameStaged_refl

/-- A data request is no staged slot. -/
theorem ButStaged.dmReq (r : Option (DataRequest W)) : StagedAlike s t { s with dmReq := r } { t with dmReq := r } :=
  ButStaged.alike_of_sameStaged (congrArg (fun u : State W => { u with dmReq := r }) h :) s.sameStaged_refl
    t.sameStaged_refl

/-- Nor is anything a ready Fetch writes. -/
theorem ButStaged.fetched : StagedAlike s t s.fetched t.fetched :=
  ButStaged.alike_of_sameStaged (congrArg State.fetched h :) s.sameStaged_refl t.sameStaged_refl

/-- Nor is anything a waiting Fetch writes. -/
theorem ButStaged.imReq (r : Option (FetchRequest W)) :
    StagedAlike s t { s with stalled := false, imReq := r } { t with stalled := false, imReq := r } :=
  ButStaged.alike_of_sameStaged (congrArg (fun u : State W => { u with stalled := false, imReq := r }) h :)
    s.sameStaged_refl t.sameStaged_refl

end OneSlot

section Stages

variable {W : Widths} {s t : State W} (h : ButStaged s t) (c : Collaborators W) (d : DecodeAnswer W)
include h

/-- The Fetch stage reads no staged slot (40_pipeline_cycle.md R123). -/
theorem ButStaged.fetchStage :
    s.fetchStage.1 = t.fetchStage.1 ∧ StagedAlike s t s.fetchStage.2 t.fetchStage.2 := by
  obtain ⟨_, _, _, _, _, rfl⟩ := h.exists_eq
  cases hw : s.fetchWaits with
  | zero =>
    rw [State.fetchStage_ready hw, State.fetchStage_ready (h.fetchWaits.trans hw)]
    exact ⟨rfl, h.fetched⟩
  | succ n =>
    rw [State.fetchStage_waiting hw, State.fetchStage_waiting (h.fetchWaits.trans hw)]
    exact ⟨rfl, h.imReq _⟩

/-- The Execute stage reads no staged slot (40_pipeline_cycle.md R125). -/
theorem ButStaged.executeStage : EndsAlike s t (executeStage c s d) (executeStage c t d) := by
  obtain ⟨_, _, _, _, _, rfl⟩ := h.exists_eq
  cases d with
  | reserved => exact h.alike_refl
  | unknown sub =>
    cases sub with
    | registerFile => rfl
    | memory | jump => exact h.alike_refl
  | record r =>
    cases r with
    | aluImm func imm => exact h.stageAlu _
    | aluReg func idx =>
      simp only [Machine.executeStage, h.register]
      cases s.register idx with
      | none => rfl
      | some v => exact h.stageAlu _
    | rfSet imm => exact h.setNextAcc imm
    | rfGet idx =>
      simp only [Machine.executeStage, h.register]
      cases s.register idx with
      | none => rfl
      | some v => exact h.setNextAcc v
    | rfPut idx =>
      simp only [Machine.executeStage, h.register]
      cases s.register idx with
      | none => rfl
      | some v => exact h.setNextRegister idx s.acc
    | memLoad | memStore | branch | jumpImmRel | jumpRegRel | jumpRegAbs | halt => exact h.alike_refl

/-- The Memory-access stage reads no staged slot (40_pipeline_cycle.md R126). -/
theorem ButStaged.memoryStage : EndsAlike s t (memoryStage s d) (memoryStage t d) := by
  obtain ⟨_, _, _, _, _, rfl⟩ := h.exists_eq
  cases d with
  | reserved => exact h.alike_refl
  | unknown sub =>
    cases sub with
    | memory => rfl
    | registerFile | jump => exact h.alike_refl
  | record r =>
    cases r with
    | memLoad =>
      cases hw : s.loadWaits with
      | zero =>
        rw [memoryStage_load_ready hw, memoryStage_load_ready (h.loadWaits.trans hw)]
        have hreq := h.dmReq (some (.load s.dmar 0))
        exact hreq.trans (hreq.butStaged.setNextAcc _)
      | succ n =>
        rw [memoryStage_load_waiting hw, memoryStage_load_waiting (h.loadWaits.trans hw)]
        exact h.dmReq _
    | memStore =>
      cases hw : s.storeWaits with
      | zero =>
        rw [memoryStage_store_ready hw, memoryStage_store_ready (h.storeWaits.trans hw)]
        have hreq := h.dmReq (some (.store s.dmar s.acc 0))
        exact hreq.trans (hreq.butStaged.stagedStore _ _)
      | succ n =>
        rw [memoryStage_store_waiting hw, memoryStage_store_waiting (h.storeWaits.trans hw)]
        exact h.dmReq _
    | _ => exact h.alike_refl

/-- The PC-update stage reads no staged slot (40_pipeline_cycle.md R127). -/
theorem ButStaged.pcUpdateStage : EndsAlike s t (pcUpdateStage c s d) (pcUpdateStage c t d) := by
  obtain ⟨_, _, _, _, _, rfl⟩ := h.exists_eq
  cases d with
  | reserved => exact h.nextPc _
  | unknown sub =>
    cases sub with
    | jump => rfl
    | registerFile | memory => exact h.nextPc _
  | record r => cases r <;> exact h.nextPc _

end Stages

/-- Settles O44: a cycle's four ends (`cycle_cases`), and what the iteration makes of each. -/
theorem shortCircuitCommitsNothing : Obligations.ShortCircuitCommitsNothing := by
  intro W c s
  refine ⟨?_, cycle_halted_iff, iterate_sameValues, iterate_of_completed⟩
  rw [cycle_stalled_iff, State.dataWaits_ne_zero_iff]

/-- Settles O46: each stage is a function of the committed cells and the requests, and a PUT's commit is what the GET in the
next step reads. -/
theorem stagedWritesAreInvisibleUntilCommit : Obligations.StagedWritesAreInvisibleUntilCommit := by
  refine ⟨fun W c d s t h => ?_, fun W c d s t h => ?_, ?_⟩
  · obtain ⟨hword, hfetch⟩ := h.fetchStage
    exact ⟨hword, hfetch, h.executeStage c d, h.memoryStage d, h.pcUpdateStage c d⟩
  · have ⟨hsame, hparams⟩ : s.SameCommitted t ∧ t.params = s.params := by
      obtain h | h | h := h
      · exact executeStage_committed h
      · exact memoryStage_committed h
      · exact pcUpdateStage_committed h
    exact ⟨hsame, hsame.reads hparams⟩
  · intro s t idx hq hidx hws hput hstep hroom hwt hget
    obtain ⟨hrun, -⟩ := step_cases hstep
    cases (step_put hrun hq hidx hws hput).symm.trans hstep
    obtain ⟨hhalted, hfault, -⟩ := hrun
    exact ⟨_, step_get ⟨hhalted, hfault, hroom⟩ hq hidx hwt hget, (Regs.read_write s.x idx idx s.acc).trans (if_pos rfl)⟩

end Sys2Proof.Claims

/-!
# The ALU (42_alu.md)

How an iteration of the stage sequencer that decodes an ALU op ends, for any widths, decoder and ALU.
-/

namespace Sys2Proof.Machine

section AluCycle

variable {W : Widths} {c : Collaborators W} {s u : State W}

/-- An iteration that fetches a record other than a halt, and whose later stages complete, counts and commits what they staged
(40_pipeline_cycle.md R128, R129). -/
theorem iterate_of_afterDecode {r : Decoded W} (hw : s.fetchWaits = 0) (hd : c.decode s.wordAtPc = .record r)
    (hr : r ≠ .halt) (he : afterDecode c (.record r) s.fetched = (.completed, u)) :
    (iterate c s).2 = u.countCycle.commitPhase := by
  have hcycle : cycle c s = (.completed, u) := by
    rw [cycle_ready hw, hd, ← he]
    cases r with
    | halt => exact absurd rfl hr
    | _ => rfl
  rw [iterate_of_completed (congrArg Prod.fst hcycle), hcycle]

/-- The stages after Decode for an ALU op on an immediate (42_alu.md R145). -/
theorem afterDecode_aluImm (func : FuncCode) (imm : W.Data) :
    afterDecode c (.record (.aluImm func imm)) s =
      (.completed, (s.stageAlu (c.alu s.acc imm func)).increment) :=
  rfl

/-- The stages after Decode for an ALU op on a register that answers (42_alu.md R146). -/
theorem afterDecode_aluReg (func : FuncCode) {idx : W.Idx} {v : W.Data} (hv : s.register idx = some v) :
    afterDecode c (.record (.aluReg func idx)) s =
      (.completed, (s.stageAlu (c.alu s.acc v func)).increment) := by
  simp only [afterDecode, executeStage, hv, memoryStage, pcUpdateStage]

end AluCycle

end Sys2Proof.Machine

namespace Sys2Proof.Claims

open Sys2Proof.Machine

/-- Settles O42: either form stages the ALU's answer and the next pc, and the commit of empty slots so filled is
`State.commit_stageAlu`. -/
theorem sequencerCommitsAluResult : Obligations.SequencerCommitsAluResult := by
  intro W c s func hq hw
  refine ⟨fun imm hd => ?_, fun idx hidx hd => ?_⟩
  · rw [iterate_of_afterDecode hw hd nofun (afterDecode_aluImm func imm)]
    exact State.commit_stageAlu (s := s.fetched) hq _
  · have hv : s.fetched.register idx = some (Regs.read s.x idx) := if_pos hidx
    rw [iterate_of_afterDecode hw hd nofun (afterDecode_aluReg func hv)]
    exact State.commit_stageAlu (s := s.fetched) hq _

end Sys2Proof.Claims


/-!
# Control transfer (45_control_transfer.md)

How a sequential instruction's cycle ends, and where the pc then stands.
-/

namespace Sys2Proof.Machine

open Sys2Proof.Claims

section Sequential

variable {i : Instr} {s t u : State}

theorem State.StagedFrom.pc (h : s.StagedFrom u) : u.pc = s.pc := (congrArg State.pc h :)

/-- An ALU op increments and completes, or faults on a missing register (42_alu.md R145, R146). -/
theorem aluOp_increments_or_faults (f : Data → Data → AluResult) (b : OperandB) (s : State) :
    (∃ u, aluOp f b s = endCompleted u.increment ∧ s.StagedFrom u) ∨ ∃ k, aluOp f b s = endFaulted s k := by
  cases b with
  | immediate imm => exact .inl ⟨_, rfl, rfl⟩
  | register idx =>
    simp only [aluOp]
    cases s.register idx with
    | some v => exact .inl ⟨_, rfl, rfl⟩
    | none => exact .inr ⟨_, rfl⟩

/-- How the cycle of a sequential instruction ends: it increments and completes, its memory port makes it stall, or its
register is missing (45_control_transfer.md R190). -/
theorem exec_increments_or_stalls_or_faults (hi : isSequential i = true) (s : State) :
    (∃ u, exec i s = endCompleted u.increment ∧ s.StagedFrom u) ∨ (∃ u, exec i s = endStalled u) ∨
      ∃ k, exec i s = endFaulted s k := by
  cases ha : isAluOp i with
  | true =>
    obtain ⟨f, b, hexec, -⟩ := exec_eq_aluOp ha
    rw [hexec]
    exact (aluOp_increments_or_faults f b s).imp_right .inr
  | false =>
    cases i with
    | set imm => exact .inl ⟨_, rfl, rfl⟩
    | get idx =>
      simp only [exec, execGet]
      cases s.register idx with
      | some v => exact .inl ⟨_, rfl, rfl⟩
      | none => exact .inr (.inr ⟨_, rfl⟩)
    | put idx =>
      simp only [exec, execPut]
      cases s.register idx with
      | some v => exact .inl ⟨_, rfl, rfl⟩
      | none => exact .inr (.inr ⟨_, rfl⟩)
    | load =>
      simp only [exec, execLoad]
      cases hw : s.loadWaits with
      | zero => rw [State.loadPort_ready hw]; exact .inl ⟨_, rfl, rfl⟩
      | succ n => rw [State.loadPort_waiting hw]; exact .inr (.inl ⟨_, rfl⟩)
    | store =>
      simp only [exec, execStore]
      cases hw : s.storeWaits with
      | zero => rw [State.storePort_ready hw]; exact .inl ⟨_, rfl, rfl⟩
      | succ n => rw [State.storePort_waiting hw]; exact .inr (.inl ⟨_, rfl⟩)
    | _ => cases ha.symm.trans hi

/-- A sequential instruction that neither stalls nor faults leaves the next address, whatever pc was staged before: its
increment overwrites the slot. -/
theorem exec_pc_of_isSequential (hi : isSequential i = true) (h : exec i s = .next t) (hstall : t.stalled = false)
    (hfault : t.fault = none) : t.pc = s.pc + 1 := by
  obtain ⟨u, hexec, hu⟩ | ⟨u, hexec⟩ | ⟨k, hexec⟩ := exec_increments_or_stalls_or_faults hi s
  · cases hexec.symm.trans h
    exact congrArg (· + 1) hu.pc
  · cases hexec.symm.trans h
    cases hstall
  · cases hexec.symm.trans h
    cases hfault

end Sequential

end Sys2Proof.Machine

namespace Sys2Proof.Claims

open Sys2Proof.Machine

/-- Settles O26: the step is `exec` of the decoded instruction, a sequential one commits its increment and HALT commits
nothing. -/
theorem sequentialInstructionsIncrement : Obligations.SequentialInstructionsIncrement := by
  intro i s t hw hdec h hstall hfault
  obtain ⟨hrun, -⟩ := step_cases h
  have hexec : exec i s.fetched = .next t := by rwa [step_ready hrun hw, hdec] at h
  refine ⟨fun hi => ?_, ?_⟩
  · have hpc : t.pc = s.pc + 1 := exec_pc_of_isSequential (s := s.fetched) hi hexec hstall hfault
    rw [hpc]
    exact BitVec.toNat_add s.pc 1
  · rintro rfl
    cases hexec
    rfl

end Sys2Proof.Claims

/-!
# The run loop (46_run_loop.md)

A run, for any widths and collaborators, is a stretch of iterations that continue and then one of five endings. Every
obligation about how runs end reads its answer off that.
-/

namespace Sys2Proof.Machine

/-! ### The end flags: `halted` and `fault` -/

section EndFlags

variable {W : Widths} {c : Collaborators W} {s : State W}

/-- The end flags of `u`, left by a cycle from `s` with the given outcome: only a halt sets `halted` and only a fault sets
`fault` (10_state.md R32, R39). -/
def CycleOutcome.Flags (s u : State W) : CycleOutcome W → Prop
  | .completed => u.halted = s.halted ∧ u.fault = s.fault
  | .stalled => u.halted = s.halted ∧ u.fault = s.fault
  | .halted => u.halted = true ∧ u.fault = s.fault
  | .fault k => u.halted = s.halted ∧ u.fault = some k

theorem afterDecode_flags (c : Collaborators W) (d : DecodeAnswer W) (s : State W) :
    (afterDecode c d s).1.Flags s (afterDecode c d s).2 := by
  cases d with
  | reserved => exact ⟨rfl, rfl⟩
  | unknown sub => cases sub <;> exact ⟨rfl, rfl⟩
  | record r =>
    cases r with
    | memLoad =>
      cases hw : s.loadWaits with
      | zero => rw [afterDecode_of_proceed rfl (memoryStage_load_ready hw) rfl]; exact ⟨rfl, rfl⟩
      | succ n => rw [afterDecode_of_stall rfl (memoryStage_load_waiting hw)]; exact ⟨rfl, rfl⟩
    | memStore =>
      cases hw : s.storeWaits with
      | zero => rw [afterDecode_of_proceed rfl (memoryStage_store_ready hw) rfl]; exact ⟨rfl, rfl⟩
      | succ n => rw [afterDecode_of_stall rfl (memoryStage_store_waiting hw)]; exact ⟨rfl, rfl⟩
    | aluReg func idx | rfGet idx | rfPut idx =>
      cases hr : s.register idx <;> simp only [afterDecode, executeStage, hr, memoryStage, pcUpdateStage] <;>
        exact ⟨rfl, rfl⟩
    | aluImm | rfSet | branch | jumpImmRel | jumpRegRel | jumpRegAbs | halt => exact ⟨rfl, rfl⟩

theorem cycle_flags (c : Collaborators W) (s : State W) : (cycle c s).1.Flags s (cycle c s).2 := by
  cases hw : s.fetchWaits with
  | succ n => rw [cycle_waiting hw]; exact ⟨rfl, rfl⟩
  | zero =>
    rw [cycle_ready hw]
    split
    · exact ⟨rfl, rfl⟩
    · exact ⟨rfl, rfl⟩
    · exact afterDecode_flags c _ s.fetched

/-- An iteration that fetches a halt counts the cycle and commits nothing (46_run_loop.md R212). -/
theorem iterate_of_halt (hw : s.fetchWaits = 0) (hd : c.decode s.wordAtPc = .record .halt) :
    iterate c s = (.halted s.fetched.halt.countCycle.snapshot, s.fetched.halt.countCycle) := by
  have hcycle : cycle c s = (.halted, s.fetched.halt) := by rw [cycle_ready hw, hd]
  simp only [iterate, hcycle]

/-- Everything an iteration can be: it continues and leaves the end flags, it halts at a halt word, or it faults
(46_run_loop.md R210). -/
theorem iterate_cases (c : Collaborators W) (s : State W) :
    (∃ t, iterate c s = (.continuing t.snapshot, t) ∧ t.halted = s.halted ∧ t.fault = s.fault) ∨
      (s.fetchWaits = 0 ∧ c.decode s.wordAtPc = .record .halt ∧
        iterate c s = (.halted s.fetched.halt.countCycle.snapshot, s.fetched.halt.countCycle)) ∨
      ∃ k t, iterate c s = (.fault k, t) ∧ t.halted = s.halted ∧ t.fault = some k := by
  have hflags := cycle_flags c s
  rcases hc : cycle c s with ⟨_ | _ | _ | k, u⟩ <;> rw [hc] at hflags
  · exact .inl ⟨u.countCycle.commitPhase, by simp only [iterate, hc], hflags⟩
  · exact .inl ⟨u.countCycle, by simp only [iterate, hc], hflags⟩
  · obtain ⟨hw, hd⟩ := cycle_halted_iff.mp (congrArg Prod.fst hc)
    exact .inr (.inl ⟨hw, hd, iterate_of_halt hw hd⟩)
  · exact .inr (.inr ⟨k, u, by simp only [iterate, hc], hflags⟩)

/-- Staged slots that are empty before an iteration are empty after it: a commit empties them, and nothing else that ends a
cycle has filled one (10_state.md R41). -/
theorem iterate_quiet (hq : s.Quiet) : (iterate c s).2.Quiet := by
  by_cases hc : (cycle c s).1 = .completed
  · rw [iterate_of_completed hc]
    exact ⟨rfl, rfl, rfl, rfl, rfl⟩
  · obtain ⟨-, hacc, hx, hst, hpc, hstore⟩ := iterate_sameValues hc
    obtain ⟨hacc', hst', hx', hpc', hstore'⟩ := hq
    exact ⟨hacc.trans hacc', hst.trans hst', hx.trans hx', hpc.trans hpc', hstore.trans hstore'⟩

end EndFlags

/-! ### The run as iterations that continue, then an ending -/

section Runs

variable {W : Widths} {c : Collaborators W} {bound : Option Nat} {take : Nat} {s t u : State W}
  {snap : Snapshot W} {snaps : List (Snapshot W)}

theorem runLoop_of_end {e : RunEnd W} (he : endBeforeCycle bound s = some e) :
    runLoop c bound take s = ⟨[], e, s⟩ := by
  cases take <;> simp only [runLoop, he]

theorem runLoop_zero (he : endBeforeCycle bound s = none) : runLoop c bound 0 s = ⟨[], .abandoned, s⟩ := by
  simp only [runLoop, he]

theorem runLoop_succ_of_continuing (he : endBeforeCycle bound s = none) (hi : iterate c s = (.continuing snap, t)) :
    runLoop c bound (take + 1) s =
      ⟨snap :: (runLoop c bound take t).snapshots, (runLoop c bound take t).ending, (runLoop c bound take t).final⟩ := by
  simp only [runLoop, he, hi]

theorem runLoop_succ_of_halted {r : Snapshot W} (he : endBeforeCycle bound s = none) (hi : iterate c s = (.halted r, t)) :
    runLoop c bound (take + 1) s = ⟨[], .halted r, t⟩ := by
  simp only [runLoop, he, hi]

theorem runLoop_succ_of_fault {k : FaultKind W} (he : endBeforeCycle bound s = none) (hi : iterate c s = (.fault k, t)) :
    runLoop c bound (take + 1) s = ⟨[], .faulted k, t⟩ := by
  simp only [runLoop, he, hi]

/-- The run goes on from `s` to `u` by iterations that each produce one of the snapshots (46_run_loop.md R214). -/
inductive Continues (c : Collaborators W) (bound : Option Nat) : List (Snapshot W) → State W → State W → Prop
  | refl (s : State W) : Continues c bound [] s s
  | cons {snap : Snapshot W} {snaps : List (Snapshot W)} {s t u : State W} (he : endBeforeCycle bound s = none)
      (hi : iterate c s = (.continuing snap, t)) (htail : Continues c bound snaps t u) :
      Continues c bound (snap :: snaps) s u

/-- No iteration that continues sets `halted`. -/
theorem Continues.halted (h : Continues c bound snaps s u) : u.halted = s.halted := by
  induction h with
  | refl s => rfl
  | @cons _ _ s _ _ _ hi _ ih =>
    obtain ⟨_, hi', hhalted, -⟩ | ⟨-, -, hi'⟩ | ⟨_, _, hi', -⟩ := iterate_cases c s <;> cases hi'.symm.trans hi
    exact ih.trans hhalted

/-- A larger bound stops no iteration that a smaller one let go on (46_run_loop.md R214, D20). -/
theorem Continues.of_le {b larger : Nat} (hle : b ≤ larger) (h : Continues c (some b) snaps s u) :
    Continues c (some larger) snaps s u := by
  induction h with
  | refl s => exact .refl s
  | cons he hi _ ih =>
    obtain ⟨hrun, hbound⟩ := endBeforeCycle_eq_none.mp he
    refine .cons (endBeforeCycle_eq_none.mpr ⟨hrun, ?_⟩) hi ih
    simp only [boundReached, decide_eq_false_iff_not] at hbound ⊢
    omega

/-- Runs compose: a caller that consumes past a stretch of iterations sees its snapshots, then the run from its end. -/
theorem Continues.runLoop_append (h : Continues c bound snaps s u) (n : Nat) :
    runLoop c bound (snaps.length + n) s =
      ⟨snaps ++ (runLoop c bound n u).snapshots, (runLoop c bound n u).ending, (runLoop c bound n u).final⟩ := by
  induction h with
  | refl s => rw [List.length_nil, Nat.zero_add, List.nil_append]
  | cons he hi _ ih => rw [List.length_cons, Nat.add_right_comm, runLoop_succ_of_continuing he hi, ih, List.cons_append]

/-- What each ending of `run` says when its last continuing iteration left `u`: a run ends in `u` itself, or by the one
iteration from `u` that halts or faults (46_run_loop.md R212, R214, R217, R220 to R222). -/
def Run.EndsFrom (c : Collaborators W) (bound : Option Nat) (take : Nat) (u : State W) (run : Run W) : Prop :=
  match run.ending with
  | .halted r =>
    run.final.halted = true ∧ run.final.fault = none ∧ r = run.final.snapshot ∧
      (run.final = u ∨
        u.fetchWaits = 0 ∧ c.decode u.wordAtPc = .record .halt ∧ run.final = u.fetched.halt.countCycle)
  | .timedOut r =>
    run.final = u ∧ u.halted = false ∧ u.fault = none ∧ r = u.snapshot ∧ ∃ b, bound = some b ∧ b ≤ u.cycleCount
  | .faulted k => run.final.fault = some k ∧ run.final.halted = u.halted
  | .abandoned => run.final = u ∧ u.CanRun ∧ boundReached bound u = false ∧ run.snapshots.length = take
  | .counterFull =>
    run.final = u ∧ u.halted = false ∧ u.fault = none ∧ boundReached bound u = false ∧ u.roomFor 1 = false

theorem Run.endsFrom_of_end {e : RunEnd W} (he : endBeforeCycle bound s = some e) :
    Run.EndsFrom c bound take s ⟨[], e, s⟩ := by
  obtain ⟨k, hf, rfl⟩ | ⟨hf, hh, rfl⟩ | ⟨hf, hh, hb, rfl⟩ | ⟨hf, hh, hb, hroom, rfl⟩ := endBeforeCycle_cases he
  · exact ⟨hf, rfl⟩
  · exact ⟨hh, hf, rfl, .inl rfl⟩
  · cases bound with
    | none => cases hb
    | some b => exact ⟨rfl, hh, hf, rfl, b, rfl, of_decide_eq_true hb⟩
  · exact ⟨rfl, hh, hf, hb, hroom⟩

/-- A snapshot before the run puts off where it ends, nothing else. -/
theorem Run.EndsFrom.cons {run : Run W} (h : Run.EndsFrom c bound take u run) :
    Run.EndsFrom c bound (take + 1) u ⟨snap :: run.snapshots, run.ending, run.final⟩ := by
  obtain ⟨snapshots, ending, final⟩ := run
  cases ending with
  | abandoned =>
    obtain ⟨hfinal, hrun, hbound, hlen⟩ := h
    exact ⟨hfinal, hrun, hbound, congrArg (· + 1) hlen⟩
  | halted | timedOut | faulted | counterFull => exact h

/-- Everything a run can be: iterations that continue, then one of the five endings (46_run_loop.md R220). -/
theorem runLoop_cases (c : Collaborators W) (bound : Option Nat) (take : Nat) (s : State W) :
    ∃ u, Continues c bound (runLoop c bound take s).snapshots s u ∧
      Run.EndsFrom c bound take u (runLoop c bound take s) := by
  induction take generalizing s with
  | zero =>
    cases he : endBeforeCycle bound s with
    | some e => rw [runLoop_of_end he]; exact ⟨s, .refl s, Run.endsFrom_of_end he⟩
    | none =>
      obtain ⟨hrun, hbound⟩ := endBeforeCycle_eq_none.mp he
      rw [runLoop_zero he]
      exact ⟨s, .refl s, rfl, hrun, hbound, rfl⟩
  | succ take ih =>
    cases he : endBeforeCycle bound s with
    | some e => rw [runLoop_of_end he]; exact ⟨s, .refl s, Run.endsFrom_of_end he⟩
    | none =>
      obtain ⟨⟨-, hfault, -⟩, -⟩ := endBeforeCycle_eq_none.mp he
      obtain ⟨t, hi, -⟩ | ⟨hw, hd, hi⟩ | ⟨k, t, hi, hhalted, hk⟩ := iterate_cases c s
      · obtain ⟨u, hcont, hend⟩ := ih t
        rw [runLoop_succ_of_continuing he hi]
        exact ⟨u, .cons he hi hcont, hend.cons⟩
      · rw [runLoop_succ_of_halted he hi]
        exact ⟨s, .refl s, rfl, hfault, rfl, .inr ⟨hw, hd, rfl⟩⟩
      · rw [runLoop_succ_of_fault he hi]
        exact ⟨s, .refl s, hk, hhalted⟩

/-- What every iteration keeps, a run keeps. -/
theorem runLoop_final_of_iterate {P : State W → Prop} (hkeep : ∀ s, P s → P (iterate c s).2) (hs : P s) :
    P (runLoop c bound take s).final := by
  induction take generalizing s with
  | zero => cases he : endBeforeCycle bound s <;> simpa only [runLoop, he] using hs
  | succ take ih =>
    cases he : endBeforeCycle bound s with
    | some e => rw [runLoop_of_end he]; exact hs
    | none =>
      have ht := hkeep s hs
      obtain ⟨t, hi, -⟩ | ⟨-, -, hi⟩ | ⟨_, t, hi, -⟩ := iterate_cases c s <;> rw [hi] at ht
      · rw [runLoop_succ_of_continuing he hi]; exact ih ht
      · rw [runLoop_succ_of_halted he hi]; exact ht
      · rw [runLoop_succ_of_fault he hi]; exact ht

theorem runLoop_quiet (hq : s.Quiet) : (runLoop c bound take s).final.Quiet :=
  runLoop_final_of_iterate (fun _ => iterate_quiet) hq

/-- The result of a run that halts is the snapshot of its final state, which is halted (46_run_loop.md R212, R216). -/
theorem runLoop_result {r : Snapshot W} (h : (runLoop c bound take s).ending = .halted r) :
    r = (runLoop c bound take s).final.snapshot ∧ (runLoop c bound take s).final.halted = true := by
  obtain ⟨u, -, hend⟩ := runLoop_cases c bound take s
  simp only [Run.EndsFrom, h] at hend
  obtain ⟨hhalted, -, hr, -⟩ := hend
  exact ⟨hr, hhalted⟩

/-- A run times out at its bound with the snapshot of an unhalted final state (46_run_loop.md R214, R215). -/
theorem runLoop_timedOut {r : Snapshot W} (h : (runLoop c bound take s).ending = .timedOut r) :
    r = (runLoop c bound take s).final.snapshot ∧ (runLoop c bound take s).final.halted = false ∧
      ∃ b, bound = some b ∧ b ≤ (runLoop c bound take s).final.cycleCount := by
  obtain ⟨u, -, hend⟩ := runLoop_cases c bound take s
  simp only [Run.EndsFrom, h] at hend
  obtain ⟨hfinal, hhalted, -, hr, hbound⟩ := hend
  rw [hfinal]
  exact ⟨hr, hhalted, hbound⟩

/-- Timing out is the only ending that leaves an unhalted, unfaulted machine at the bound (46_run_loop.md R214). -/
theorem runLoop_timedOut_of_final {b : Nat} (hhalted : (runLoop c (some b) take s).final.halted = false)
    (hfault : (runLoop c (some b) take s).final.fault = none) (hb : b ≤ (runLoop c (some b) take s).final.cycleCount) :
    (runLoop c (some b) take s).ending = .timedOut (runLoop c (some b) take s).final.snapshot := by
  obtain ⟨u, -, hend⟩ := runLoop_cases c (some b) take s
  cases h : (runLoop c (some b) take s).ending with simp only [Run.EndsFrom, h] at hend
  | halted r =>
    obtain ⟨hset, -⟩ := hend
    exact absurd (hhalted.symm.trans hset) nofun
  | timedOut r =>
    obtain ⟨hfinal, -, -, rfl, -⟩ := hend
    rw [hfinal]
  | faulted k =>
    obtain ⟨hset, -⟩ := hend
    exact absurd (hfault.symm.trans hset) nofun
  | abandoned =>
    obtain ⟨hfinal, -, hbound, -⟩ := hend
    exact absurd (hfinal ▸ hb) (of_decide_eq_false hbound)
  | counterFull =>
    obtain ⟨hfinal, -, -, hbound, -⟩ := hend
    exact absurd (hfinal ▸ hb) (of_decide_eq_false hbound)

end Runs

/-- A machine that cannot run takes no step (46_run_loop.md R221). -/
theorem step_ne_next {s : State} (h : ¬ s.CanRun) (t : State) : step s ≠ .next t := by
  intro hstep
  obtain ⟨hrun, -⟩ := step_cases hstep
  exact h hrun

end Sys2Proof.Machine

namespace Sys2Proof.Claims

open Sys2Proof.Machine

/-- Settles O51: the run's ending by `runLoop_cases`, with `halted` kept false up to it; a timed-out run's iterations go on
under the larger bound. -/
theorem runEndsInOneOfThreeWays : Obligations.RunEndsInOneOfThreeWays := by
  intro c bound take s ⟨hnothalted, _, _⟩ hq
  refine ⟨runLoop_quiet hq, ?_⟩
  obtain ⟨u, hcont, hend⟩ := runLoop_cases c bound take s
  have hu : u.halted = false := hcont.halted.trans hnothalted
  cases h : (runLoop c bound take s).ending with simp only [Run.EndsFrom, h] at hend ⊢
  | halted r =>
    obtain ⟨hhalted, hfault, -, hfinal | ⟨-, hd, hfinal⟩⟩ := hend
    · rw [hfinal, hu] at hhalted; cases hhalted
    · refine ⟨hhalted, hfault, ?_, ?_, step_ne_next fun ⟨hnot, _⟩ => absurd (hhalted.symm.trans hnot) nofun⟩
      · rw [hfinal]; exact hd
      · rw [hfinal]; rfl
  | timedOut r =>
    obtain ⟨hfinal, hhalted, hfault, -, b, rfl, hb⟩ := hend
    rw [hfinal]
    exact ⟨hhalted, hfault, b, rfl, hb, fun larger n hle => (hcont.of_le hle).runLoop_append n⟩
  | faulted k =>
    obtain ⟨hfault, hhalted⟩ := hend
    exact ⟨hfault, hhalted.trans hu, step_ne_next fun ⟨_, hnot, _⟩ => absurd (hfault.symm.trans hnot) nofun⟩
  | abandoned =>
    obtain ⟨hfinal, hrun, -⟩ := hend
    rwa [hfinal]
  | counterFull =>
    obtain ⟨hfinal, hhalted, hfault, -, hroom⟩ := hend
    rw [hfinal]
    exact ⟨hhalted, hfault, hroom⟩

/-- Settles O52: the iteration is `iterate_of_halt`, and a run that may take it ends with it. -/
theorem haltingIterationEndsTheRun : Obligations.HaltingIterationEndsTheRun := by
  rintro W c bound take s t hrun hw hd rfl
  have hi := iterate_of_halt hw hd
  exact ⟨hi, fun hbound => runLoop_succ_of_halted (endBeforeCycle_eq_none.mpr ⟨hrun, hbound⟩) hi⟩

/-- Settles O53: what a halted and a timed-out run's results are, and that no other ending reaches the bound unhalted and
unfaulted. -/
theorem runUntilHaltAnswersResultOrTimeout : Obligations.RunUntilHaltAnswersResultOrTimeout := by
  intro W c bound take s
  refine ⟨fun b => rfl, fun b hhalted hfault hb => ?_, fun r h => ?_, fun r h => ?_⟩
  · exact congrArg haltResult (runLoop_timedOut_of_final hhalted hfault hb)
  · obtain ⟨rfl, hhalted⟩ := runLoop_result h
    exact ⟨congrArg haltResult h, rfl, hhalted⟩
  · obtain ⟨rfl, hhalted, hbound⟩ := runLoop_timedOut h
    exact ⟨congrArg haltResult h, rfl, hhalted, hbound⟩

/-- Settles O54: an abandoned run's state is the end of its continuing iterations, from which runs compose. -/
theorem abandonedRunMayBeResumed : Obligations.AbandonedRunMayBeResumed := by
  intro W c bound m n s h
  obtain ⟨u, hcont, hend⟩ := runLoop_cases c bound m s
  simp only [Run.EndsFrom, h] at hend
  obtain ⟨hfinal, -, -, hlen⟩ := hend
  have happend := hcont.runLoop_append n
  rw [hlen] at happend
  exact ⟨hlen, runLoop_quiet, by rw [happend, hfinal]⟩

end Sys2Proof.Claims

/-!
# Reserved words (30_encoding.md R99)

When each form of the decoder answers a reserved word, said by the fields it reads.
-/

namespace Sys2Proof

section Reserved

variable {w : InstrWord}

/-- A form that demands `c` answers a reserved word exactly when `c` fails. -/
theorem Decoding.ite_reserved_iff {c : Prop} [Decidable c] {j : Instr} {r : Reserved} :
    (∃ why, (if c then Decoding.instr j else .reserved r) = .reserved why) ↔ ¬ c := by
  by_cases hc : c <;> simp [hc]

theorem decodeAluImm_reserved_iff : (∃ why, decodeAluImm w = .reserved why) ↔ 5 ≤ (subField w).toNat := by
  unfold decodeAluImm
  split
  case h_6 => exact iff_of_true ⟨_, rfl⟩ (by grind)
  all_goals
    rename_i hsub
    simp [hsub]

theorem decodeAluReg_reserved_iff :
    (∃ why, decodeAluReg w = .reserved why) ↔ 5 ≤ (subField w).toNat ∨ hiField w ≠ 0 := by
  unfold decodeAluReg
  split
  case h_6 => exact iff_of_true ⟨_, rfl⟩ (.inl (by grind))
  all_goals
    rename_i hsub
    rw [Decoding.ite_reserved_iff]
    simp [hsub]

theorem decodeBranch_reserved_iff : (∃ why, decodeBranch w = .reserved why) ↔ 4 ≤ (subField w).toNat := by
  unfold decodeBranch
  split
  case h_5 => exact iff_of_true ⟨_, rfl⟩ (by grind)
  all_goals
    rename_i hsub
    simp [hsub]

theorem subField_eq_zero_iff : subField w = 0 ↔ w.toNat / 256 % 16 = 0 := by
  rw [← BitVec.toNat_inj, subField_toNat]; rfl

theorem hiField_eq_zero_iff : hiField w = 0 ↔ w.toNat / 16 % 16 = 0 := by
  rw [← BitVec.toNat_inj, hiField_toNat]; rfl

theorem argField_eq_zero_iff : argField w = 0 ↔ w.toNat % 256 = 0 := by
  rw [← BitVec.toNat_inj, argField_toNat]; rfl

theorem decodeArgForm_reserved_iff {f : BitVec 8 → Instr} :
    (∃ why, decodeArgForm w f = .reserved why) ↔ w.toNat / 256 % 16 ≠ 0 := by
  rw [decodeArgForm, Decoding.ite_reserved_iff, subField_eq_zero_iff]

theorem decodeRegForm_reserved_iff {f : RegIdx → Instr} :
    (∃ why, decodeRegForm w f = .reserved why) ↔ w.toNat / 256 % 16 ≠ 0 ∨ w.toNat / 16 % 16 ≠ 0 := by
  rw [decodeRegForm, Decoding.ite_reserved_iff, subField_eq_zero_iff, hiField_eq_zero_iff, not_and_or]

theorem decodeBareForm_reserved_iff {i : Instr} :
    (∃ why, decodeBareForm w i = .reserved why) ↔ w.toNat % 4096 ≠ 0 := by
  rw [decodeBareForm, Decoding.ite_reserved_iff, subField_eq_zero_iff, argField_eq_zero_iff]
  omega

end Reserved

end Sys2Proof

namespace Sys2Proof.Claims

/-- Settles O1: `decode_encode`, one case for each form of Table R94. -/
theorem decodeOfEncodeIsIdentity : Obligations.DecodeOfEncodeIsIdentity :=
  decode_encode

/-- Settles O2: `encode_of_decode`, one case for each major opcode. -/
theorem encodeOfDecodedWordIsTheWord : Obligations.EncodeOfDecodedWordIsTheWord :=
  fun _ _ => encode_of_decode

/-- Settles O4: the major opcode picks the form, and each form's reserved words are known by the fields it reads. -/
theorem reservedWordsAreExactlyTheListed : Obligations.ReservedWordsAreExactlyTheListed := by
  intro w
  have hw := w.isLt
  unfold decode
  split
  case h_13 =>
    simp only [opField_toNat, imp_false] at *
    exact iff_of_true ⟨_, rfl⟩ (.inl (by omega))
  all_goals
    rename_i hop
    rw [opField_toNat] at hop
  case h_1 => rw [decodeAluImm_reserved_iff, subField_toNat]; simp [hop]
  case h_2 => rw [decodeAluReg_reserved_iff, subField_toNat, Ne, hiField_eq_zero_iff]; simp [hop]
  case h_8 => rw [decodeBranch_reserved_iff, subField_toNat]; simp [hop]
  case h_3 | h_9 => rw [decodeArgForm_reserved_iff]; simp [hop]
  case h_4 | h_5 => rw [decodeRegForm_reserved_iff]; simp [hop]
  case h_6 | h_7 | h_10 | h_11 | h_12 => rw [decodeBareForm_reserved_iff]; simp [hop]

end Sys2Proof.Claims

/-!
# How an instruction's cycle ends (40_pipeline_cycle.md R121)

Every instruction answers a next state from every state, in one of five ways. The obligations about steps read their answers
off that.
-/

namespace Sys2Proof.Machine

open Sys2Proof.Claims

section ExecEnds

variable {i : Instr} {s t u : State}

/-- A register index of `NREG` or more names no register (10_state.md R22). -/
theorem State.register_of_le {idx : RegIdx} (h : s.params.nreg ≤ idx.toNat) : s.register idx = none :=
  if_neg (Nat.not_lt.mpr h)

theorem State.fetchWaits_of_imReq {n : Nat} (h : s.imReq = some ⟨s.pc, n⟩) : s.fetchWaits = n := by
  simp [State.fetchWaits, h]

theorem State.loadWaits_of_dmReq {n : Nat} (h : s.dmReq = some (.load s.dmar n)) : s.loadWaits = n := by
  simp [State.loadWaits, h]

theorem State.storeWaits_of_dmReq {n : Nat} (h : s.dmReq = some (.store s.dmar s.acc n)) : s.storeWaits = n := by
  simp [State.storeWaits, h]

/-- The state `t` that the instruction `i` leaves from `s`, by how its cycle ended. -/
inductive ExecEnds (i : Instr) (s : State) : State → Prop
  /-- HALT, in Decode -/
  | halted (hi : i = .halt) : ExecEnds i s s.halt.countCycle
  /-- counted and committed; only a PUT has staged a register -/
  | completed {u : State} (hu : s.StagedFrom u)
      (hx : u.nextX = s.nextX ∨ ∃ idx, i = .put idx ∧ u.nextX = Regs.write s.nextX idx (some s.acc)) :
      ExecEnds i s u.countCycle.commitPhase
  /-- a LOAD whose port waits -/
  | loadStalled {n : Nat} (hi : i = .load) (hw : s.loadWaits = n + 1) :
      ExecEnds i s { s.stalledOnce with dmReq := some (.load s.dmar n) }
  /-- a STORE whose port waits -/
  | storeStalled {n : Nat} (hi : i = .store) (hw : s.storeWaits = n + 1) :
      ExecEnds i s { s.stalledOnce with dmReq := some (.store s.dmar s.acc n) }
  /-- a register form whose register is missing, and so no memory op -/
  | faulted {idx : RegIdx} (hload : i ≠ .load) (hstore : i ≠ .store) : ExecEnds i s (s.raise (.badRegisterIndex idx))

/-- Every instruction answers a next state, whatever the state. -/
theorem exec_ends (i : Instr) (s : State) : ∃ t, exec i s = .next t ∧ ExecEnds i s t := by
  cases ha : isAluOp i with
  | true =>
    obtain ⟨f, b, hexec, -⟩ := exec_eq_aluOp ha
    rw [hexec]
    cases b with
    | immediate imm => exact ⟨_, rfl, .completed rfl (.inl rfl)⟩
    | register idx =>
      simp only [aluOp]
      cases s.register idx with
      | some v => exact ⟨_, rfl, .completed rfl (.inl rfl)⟩
      | none => exact ⟨_, rfl, .faulted (by rintro rfl; cases ha) (by rintro rfl; cases ha)⟩
  | false =>
    cases ht : isTransfer i with
    | true =>
      obtain ⟨p, hexec⟩ := exec_eq_stagePc ht s
      exact ⟨_, hexec, .completed rfl (.inl rfl)⟩
    | false =>
      cases i with
      | halt => exact ⟨_, rfl, .halted rfl⟩
      | set imm => exact ⟨_, rfl, .completed rfl (.inl rfl)⟩
      | get idx =>
        simp only [exec, execGet]
        cases s.register idx with
        | some v => exact ⟨_, rfl, .completed rfl (.inl rfl)⟩
        | none => exact ⟨_, rfl, .faulted nofun nofun⟩
      | put idx =>
        simp only [exec, execPut]
        cases s.register idx with
        | some v => exact ⟨_, rfl, .completed rfl (.inr ⟨idx, rfl, rfl⟩)⟩
        | none => exact ⟨_, rfl, .faulted nofun nofun⟩
      | load =>
        cases hw : s.loadWaits with
        | zero =>
          simp only [exec, execLoad, State.loadPort_ready hw]
          exact ⟨_, rfl, .completed rfl (.inl rfl)⟩
        | succ n => exact ⟨_, execLoad_waiting hw, .loadStalled rfl hw⟩
      | store =>
        cases hw : s.storeWaits with
        | zero =>
          simp only [exec, execStore, State.storePort_ready hw]
          exact ⟨_, rfl, .completed rfl (.inl rfl)⟩
        | succ n => exact ⟨_, execStore_waiting hw, .storeStalled rfl hw⟩
      | addi | subi | andi | ori | xori | add | sub | and | or | xor => cases ha
      | bcc | bcs | bvc | bvs | jmpi | jmpr | jmpa => cases ht

theorem execEnds_of_next (h : exec i s = .next t) : ExecEnds i s t := by
  obtain ⟨u, hu, hend⟩ := exec_ends i s
  cases hu.symm.trans h
  exact hend

theorem State.StagedFrom.cycleCount (h : s.StagedFrom u) : u.cycleCount = s.cycleCount := (congrArg State.cycleCount h :)

theorem State.StagedFrom.stalled (h : s.StagedFrom u) : u.stalled = s.stalled := (congrArg State.stalled h :)

theorem State.StagedFrom.stallLatch (h : s.StagedFrom u) : u.stallLatch = s.stallLatch := (congrArg State.stallLatch h :)

theorem State.StagedFrom.fault (h : s.StagedFrom u) : u.fault = s.fault := (congrArg State.fault h :)

theorem State.StagedFrom.x (h : s.StagedFrom u) : u.x = s.x := (congrArg State.x h :)

theorem State.StagedFrom.imem (h : s.StagedFrom u) : u.imem = s.imem := (congrArg State.imem h :)

theorem State.StagedFrom.dmem (h : s.StagedFrom u) : u.dmem = s.dmem := (congrArg State.dmem h :)

theorem State.StagedFrom.params (h : s.StagedFrom u) : u.params = s.params := (congrArg State.params h :)

/-- No instruction writes the instruction memory or a parameter (20_memory.md R62). -/
theorem ExecEnds.imem_params (h : ExecEnds i s t) : t.imem = s.imem ∧ t.params = s.params := by
  cases h with
  | completed hu => exact ⟨hu.imem, hu.params⟩
  | halted | loadStalled | storeStalled | faulted => exact ⟨rfl, rfl⟩

/-- Every end of an instruction's cycle but a fault counts it (46_run_loop.md R211, R222). -/
theorem ExecEnds.cycleCount (h : ExecEnds i s t) (hs : s.fault = none) :
    (t.fault = none ∧ t.cycleCount = s.cycleCount + 1) ∨ (t.fault ≠ none ∧ t.cycleCount = s.cycleCount) := by
  cases h with
  | completed hu => exact .inl ⟨hu.fault.trans hs, congrArg (· + 1) hu.cycleCount⟩
  | halted | loadStalled | storeStalled => exact .inl ⟨hs, rfl⟩
  | faulted => exact .inr ⟨nofun, rfl⟩

/-- From empty slots only a PUT commits a register, its own (43_regfile_ops.md R172). -/
theorem ExecEnds.x_of_ne (h : ExecEnds i s t) (hq : s.nextX = Regs.fill none) (hne : t.x ≠ s.x) :
    ∃ idx, i = .put idx ∧ t.x = Regs.write s.x idx s.acc := by
  cases h with
  | @completed u hu hx =>
    have ht : u.countCycle.commitPhase.x = commitRegs s.x u.nextX := congrArg (commitRegs · u.nextX) hu.x
    obtain hx | ⟨idx, hi, hx⟩ := hx
    · rw [ht, hx, hq, commitRegs_empty] at hne
      exact absurd rfl hne
    · rw [hq] at hx
      exact ⟨idx, hi, by rw [ht, hx, commitRegs_write]⟩
  | halted | loadStalled | storeStalled | faulted => exact absurd rfl hne

/-- An instruction that raises a fault has done nothing else (60_exceptions.md R238). -/
theorem ExecEnds.eq_raise_of_fault {k : FaultKind} (h : ExecEnds i s t) (hs : s.fault = none) (hk : t.fault = some k) :
    t = s.raise k := by
  cases h with
  | completed hu => exact absurd ((hu.fault.trans hs).symm.trans hk) nofun
  | halted | loadStalled | storeStalled => exact absurd (hs.symm.trans hk) nofun
  | faulted => cases hk; rfl

/-- An instruction that stalls is a memory op whose port waits (40_pipeline_cycle.md R126). -/
theorem ExecEnds.of_stalled (h : ExecEnds i s t) (hs : s.stalled = false) (ht : t.stalled = true) :
    ∃ n, (i = .load ∧ s.loadWaits = n + 1 ∧ t = { s.stalledOnce with dmReq := some (.load s.dmar n) }) ∨
      (i = .store ∧ s.storeWaits = n + 1 ∧ t = { s.stalledOnce with dmReq := some (.store s.dmar s.acc n) }) := by
  cases h with
  | completed hu => exact absurd ((hu.stalled.trans hs).symm.trans ht) nofun
  | halted | faulted => exact absurd (hs.symm.trans ht) nofun
  | loadStalled hi hw => exact ⟨_, .inl ⟨hi, hw, rfl⟩⟩
  | storeStalled hi hw => exact ⟨_, .inr ⟨hi, hw, rfl⟩⟩

end ExecEnds

/-! ### The step -/

section StepEnds

variable {i : Instr} {s t : State}

theorem State.CanRun.halted : s.CanRun → s.halted = false
  | ⟨h, _, _⟩ => h

theorem State.CanRun.fault : s.CanRun → s.fault = none
  | ⟨_, h, _⟩ => h

/-- A machine that can run has a next state: a stalled fetch and a reserved word answer one, and so does every instruction. -/
theorem exists_step_of_canRun (hrun : s.CanRun) : ∃ t, step s = .next t := by
  cases hw : s.fetchWaits with
  | succ n => exact ⟨_, step_waiting hrun hw⟩
  | zero =>
    rw [step_ready hrun hw]
    cases decode s.wordAtPc with
    | reserved why => exact ⟨_, rfl⟩
    | instr i =>
      obtain ⟨t, ht, -⟩ := exec_ends i s.fetched
      exact ⟨t, ht⟩

theorem step_of_fault {k : FaultKind} (h : s.fault = some k) : step s = .fault (.internalConsistency k) := by
  simp only [step, State.stopped, h]

theorem step_of_halted (h : s.halted = true) (hf : s.fault = none) : step s = .fault .machineHalted := by
  simp [step, State.stopped, h, hf]

theorem step_of_full (h : s.halted = false) (hf : s.fault = none) (hr : s.roomFor 1 = false) :
    step s = .refused .cycleCountFull := by
  simp [step, State.stopped, h, hf, hr]

/-- Steps that answer a next state took their first. -/
theorem exists_step_of_steps_succ {k : Nat} (h : steps (k + 1) s = .next t) :
    ∃ u, step s = .next u ∧ steps k u = .next t := by
  rw [steps] at h
  cases hs : step s with
  | next u => rw [hs] at h; exact ⟨u, rfl, h⟩
  | fault f => rw [hs] at h; cases h
  | refused r => rw [hs] at h; cases h

/-- No step writes the instruction memory or a parameter (20_memory.md R62). -/
theorem step_imem_params (h : step s = .next t) : t.imem = s.imem ∧ t.params = s.params := by
  obtain ⟨-, ⟨n, -, rfl⟩ | ⟨-, why, -, rfl⟩ | ⟨-, i, -, hexec⟩⟩ := step_cases h
  · exact ⟨rfl, rfl⟩
  · exact ⟨rfl, rfl⟩
  · exact (execEnds_of_next hexec).imem_params

/-- No number of steps writes the instruction memory or a parameter. -/
theorem steps_imem_params {k : Nat} (h : steps k s = .next t) : t.imem = s.imem ∧ t.params = s.params := by
  induction k generalizing s with
  | zero => cases h; exact ⟨rfl, rfl⟩
  | succ k ih =>
    obtain ⟨u, hu, ht⟩ := exists_step_of_steps_succ h
    obtain ⟨himem, hparams⟩ := step_imem_params hu
    obtain ⟨himem', hparams'⟩ := ih ht
    exact ⟨himem'.trans himem, hparams'.trans hparams⟩

/-- Everything a step that stalls can have done: one wait less on the fetch, or, with the fetch ready, on the data port of the
LOAD or STORE at `pc` (40_pipeline_cycle.md R123, R126). -/
theorem step_stalled_cases (h : step s = .next t) (ht : t.stalled = true) :
    ∃ n, (s.fetchWaits = n + 1 ∧ t = { s.stalledOnce with imReq := some ⟨s.pc, n⟩ }) ∨
      (s.fetchWaits = 0 ∧ decode s.wordAtPc = .instr .load ∧ s.loadWaits = n + 1 ∧
        t = { s.stalledOnce with imReq := some ⟨s.pc, 0⟩, dmReq := some (.load s.dmar n) }) ∨
      (s.fetchWaits = 0 ∧ decode s.wordAtPc = .instr .store ∧ s.storeWaits = n + 1 ∧
        t = { s.stalledOnce with imReq := some ⟨s.pc, 0⟩, dmReq := some (.store s.dmar s.acc n) }) := by
  obtain ⟨-, ⟨n, hw, rfl⟩ | ⟨-, why, -, rfl⟩ | ⟨hw, i, hdec, hexec⟩⟩ := step_cases h
  · exact ⟨n, .inl ⟨hw, rfl⟩⟩
  · cases ht
  · obtain ⟨n, ⟨rfl, hload, rfl⟩ | ⟨rfl, hstore, rfl⟩⟩ := (execEnds_of_next hexec).of_stalled rfl ht
    · exact ⟨n, .inr (.inl ⟨hw, hdec, hload, rfl⟩)⟩
    · exact ⟨n, .inr (.inr ⟨hw, hdec, hstore, rfl⟩)⟩

end StepEnds

/-! ### The invariant (10_state.md R41, 46_run_loop.md R220, R222) -/

section Invariant

variable {i : Instr} {s t u : State}

/-- A data request is outstanding only where the fetch is ready and its word is a LOAD or a STORE. -/
theorem State.Inv.dmReq_cases (h : s.Inv) :
    s.dmReq = none ∨ (s.fetchWaits = 0 ∧ (decode s.wordAtPc = .instr .load ∨ decode s.wordAtPc = .instr .store)) := by
  have hdata := h.data
  unfold State.dataInv at hdata
  split at hdata
  · obtain ⟨-, hreq, hdec, -⟩ := hdata
    exact .inr ⟨State.fetchWaits_of_imReq hreq, .inl hdec⟩
  · obtain ⟨-, hreq, hdec, -⟩ := hdata
    exact .inr ⟨State.fetchWaits_of_imReq hreq, .inr hdec⟩
  · exact .inl ‹_›

theorem State.dataInv_of_none (h : s.dmReq = none) : s.dataInv := by
  simp only [State.dataInv, h]

/-- Counting a cycle that has room keeps a finite counter within its width. -/
theorem State.CanRun.count_fits (h : s.CanRun) (hp : t.params = s.params) (hc : t.cycleCount = s.cycleCount + 1) :
    t.roomFor 0 = true := by
  obtain ⟨-, -, hroom⟩ := h
  rw [State.roomFor_after hp hc]
  exact hroom

/-- A stalled cycle keeps the invariant if the data request it leaves is the retry's. -/
theorem State.Inv.stalledOnce (h : s.Inv) (hrun : s.CanRun) {n : Nat} {r : Option DataRequest}
    (hdata : State.dataInv { s.stalledOnce with imReq := some ⟨s.pc, n⟩, dmReq := r }) :
    State.Inv { s.stalledOnce with imReq := some ⟨s.pc, n⟩, dmReq := r } where
  imem_wf := h.imem_wf
  dmem_wf := h.dmem_wf
  params_wf := h.params_wf
  count_fits := hrun.count_fits rfl rfl
  quiet := h.quiet
  latch := rfl
  halted_only := fun hh => absurd (hrun.halted.symm.trans hh) nofun
  faulted_only := fun hf => absurd hrun.fault hf
  fetch := ⟨rfl, .inl rfl⟩
  data := hdata

/-- A cycle that halts keeps the invariant. -/
theorem State.Inv.halt (h : s.Inv) (hrun : s.CanRun) (hreq : s.dmReq = none) : s.fetched.halt.countCycle.Inv where
  imem_wf := h.imem_wf
  dmem_wf := h.dmem_wf
  params_wf := h.params_wf
  count_fits := hrun.count_fits rfl rfl
  quiet := h.quiet
  latch := rfl
  halted_only := fun _ => ⟨rfl, hrun.fault, rfl⟩
  faulted_only := fun hf => absurd hrun.fault hf
  fetch := ⟨rfl, .inr (.inl rfl)⟩
  data := State.dataInv_of_none hreq

/-- A cycle that raises a fault keeps the invariant. -/
theorem State.Inv.raise (h : s.Inv) (hrun : s.CanRun) (hreq : s.dmReq = none) (k : FaultKind) :
    (s.fetched.raise k).Inv where
  imem_wf := h.imem_wf
  dmem_wf := h.dmem_wf
  params_wf := h.params_wf
  count_fits := h.count_fits
  quiet := h.quiet
  latch := rfl
  halted_only := fun hh => absurd (hrun.halted.symm.trans hh) nofun
  faulted_only := fun _ => ⟨rfl, hrun.halted, rfl⟩
  fetch := ⟨rfl, .inr (.inr nofun)⟩
  data := State.dataInv_of_none hreq

/-- A cycle that completes keeps the invariant, whatever it staged: the commit empties every slot and retires both
requests. -/
theorem State.Inv.commitPhase (h : s.Inv) (hrun : s.CanRun) (hu : s.fetched.StagedFrom u) :
    u.countCycle.commitPhase.Inv := by
  have hhalted : u.halted = false := hu.halted.trans hrun.halted
  have hfault : u.fault = none := hu.fault.trans hrun.fault
  exact {
    imem_wf := (congrArg Memory.wf hu.imem).trans h.imem_wf
    dmem_wf := commitStore_wf ((congrArg Memory.wf hu.dmem).trans h.dmem_wf) u.stagedStore
    params_wf := (congrArg Params.wf hu.params).trans h.params_wf
    count_fits := hrun.count_fits hu.params (congrArg (· + 1) hu.cycleCount)
    quiet := ⟨rfl, rfl, rfl, rfl, rfl⟩
    latch := hu.stallLatch.trans hu.stalled.symm
    halted_only := fun hh => absurd (hhalted.symm.trans hh) nofun
    faulted_only := fun hf => absurd hfault hf
    fetch := ⟨hu.stalled, hhalted, hfault⟩
    data := trivial }

/-- An instruction fetched from a state that meets the invariant leaves one that does. -/
theorem State.Inv.exec (h : s.Inv) (hrun : s.CanRun) (hdec : decode s.wordAtPc = .instr i)
    (hend : ExecEnds i s.fetched t) : t.Inv := by
  have hreq (hload : i ≠ .load) (hstore : i ≠ .store) : s.dmReq = none := by
    obtain hreq | ⟨-, hdec' | hdec'⟩ := h.dmReq_cases
    · exact hreq
    · exact absurd (Decoding.instr.inj (hdec.symm.trans hdec')) hload
    · exact absurd (Decoding.instr.inj (hdec.symm.trans hdec')) hstore
  cases hend with
  | halted hi => subst hi; exact h.halt hrun (hreq nofun nofun)
  | completed hu => exact h.commitPhase hrun hu
  | loadStalled hi => subst hi; exact h.stalledOnce hrun ⟨rfl, rfl, hdec, rfl⟩
  | storeStalled hi => subst hi; exact h.stalledOnce hrun ⟨rfl, rfl, hdec, rfl, rfl⟩
  | faulted hload hstore => exact h.raise hrun (hreq hload hstore) _

end Invariant

end Sys2Proof.Machine

namespace Sys2Proof.Claims

open Sys2Proof.Machine

/-- Settles O38: each way a step can end keeps the invariant; a stalled fetch or a reserved word meets no data request. -/
theorem invariantIsKeptByEveryStep : Obligations.InvariantIsKeptByEveryStep := by
  intro s t h hstep
  obtain ⟨hrun, ⟨n, hw, rfl⟩ | ⟨-, why, hdec, rfl⟩ | ⟨-, i, hdec, hexec⟩⟩ := step_cases hstep
  · have hreq : s.dmReq = none := h.dmReq_cases.resolve_right fun ⟨hw', _⟩ => absurd (hw'.symm.trans hw) nofun
    exact h.stalledOnce hrun (State.dataInv_of_none hreq)
  · have hreq : s.dmReq = none := h.dmReq_cases.resolve_right fun ⟨_, hd⟩ =>
      hd.elim (fun hd => absurd (hdec.symm.trans hd) nofun) (fun hd => absurd (hdec.symm.trans hd) nofun)
    exact h.raise hrun hreq _
  · exact h.exec hrun hdec (execEnds_of_next hexec)

/-- Settles O27: `step_ready` at a word that decodes. -/
theorem stepRunsTheDecodedInstruction : Obligations.StepRunsTheDecodedInstruction := by
  intro s i hrun hw hdec
  have hdec' : decode s.wordAtPc = .instr i := hdec
  rw [step_ready hrun hw, hdec']

/-- Settles O28: `step_waiting`. -/
theorem fetchStallsWhileWaiting : Obligations.FetchStallsWhileWaiting :=
  fun _ _ hrun hw => step_waiting hrun hw

/-- Settles O29: `step_ready` at a reserved word. -/
theorem reservedWordFaults : Obligations.ReservedWordFaults := by
  intro s why hrun hw hdec
  rw [step_ready hrun hw, hdec]
  rfl

/-- Settles O30: the three stops, and that every instruction answers. -/
theorem stoppedMachineTakesNoStep : Obligations.StoppedMachineTakesNoStep :=
  fun _ => ⟨fun _ => step_of_fault, step_of_halted, step_of_full, exists_step_of_canRun⟩

/-- Settles O31: a stalled fetch counts, a reserved word faults, and an instruction does either. -/
theorem stepCountsTheCycle : Obligations.StepCountsTheCycle := by
  intro s t h
  have hends : (t.fault = none ∧ t.cycleCount = s.cycleCount + 1) ∨ (t.fault ≠ none ∧ t.cycleCount = s.cycleCount) := by
    obtain ⟨⟨-, hfault, -⟩, ⟨n, -, rfl⟩ | ⟨-, why, -, rfl⟩ | ⟨-, i, -, hexec⟩⟩ := step_cases h
    · exact .inl ⟨hfault, rfl⟩
    · exact .inr ⟨nofun, rfl⟩
    · exact (execEnds_of_next hexec).cycleCount hfault
  obtain ⟨hfault, hcount⟩ | ⟨hfault, hcount⟩ := hends
  · exact ⟨fun _ => hcount, fun hne => absurd hfault hne⟩
  · exact ⟨fun heq => absurd heq hfault, fun _ => hcount⟩

/-- Settles O34: only a PUT has staged a register when its cycle completes. -/
theorem registersAreWrittenByPutOnly : Obligations.RegistersAreWrittenByPutOnly := by
  intro s t ⟨_, _, hx, _⟩ h hne
  obtain ⟨-, ⟨n, -, rfl⟩ | ⟨-, why, -, rfl⟩ | ⟨-, i, hdec, hexec⟩⟩ := step_cases h
  · exact absurd rfl hne
  · exact absurd rfl hne
  · obtain ⟨idx, rfl, ht⟩ := (execEnds_of_next hexec).x_of_ne hx hne
    exact ⟨idx, hdec, fun j => by rw [ht]; exact Regs.read_write s.x idx j s.acc⟩

/-- Settles O35: `steps_imem_params`, an induction on the number of steps. -/
theorem instructionMemoryIsNeverWritten : Obligations.InstructionMemoryIsNeverWritten :=
  fun _ _ _ => steps_imem_params

/-- Settles O36: the three stalls, of the fetch and of either data port. -/
theorem stalledStepChangesNothingCommitted : Obligations.StalledStepChangesNothingCommitted := by
  intro s t h ht
  obtain ⟨⟨hhalted, hfault, -⟩, -⟩ := step_cases h
  obtain ⟨n, ⟨hw, rfl⟩ | ⟨hw, hdec, hload, rfl⟩ | ⟨hw, hdec, hstore, rfl⟩⟩ := step_stalled_cases h ht
  · refine ⟨rfl, hhalted, hfault, rfl, rfl, rfl, rfl, rfl, fun _ => ?_, fun h0 => absurd (h0.symm.trans hw) nofun⟩
    rw [hw, State.fetchWaits_of_imReq rfl]
  · refine ⟨rfl, hhalted, hfault, rfl, rfl, rfl, rfl, rfl, fun h0 => absurd hw h0, fun _ => ?_⟩
    refine ⟨State.fetchWaits_of_imReq rfl, .inl ⟨hdec, ?_⟩⟩
    rw [hload, State.loadWaits_of_dmReq rfl]
  · refine ⟨rfl, hhalted, hfault, rfl, rfl, rfl, rfl, rfl, fun h0 => absurd hw h0, fun _ => ?_⟩
    refine ⟨State.fetchWaits_of_imReq rfl, .inr ⟨hdec, ?_⟩⟩
    rw [hstore, State.storeWaits_of_dmReq rfl]

/-- Settles O37: a fault is raised on the fetched state by a reserved word or a missing register. -/
theorem faultingStepIsPrecise : Obligations.FaultingStepIsPrecise := by
  intro s t k h hk
  refine ⟨?_, step_of_fault hk⟩
  obtain ⟨⟨-, hfault, -⟩, ⟨n, -, rfl⟩ | ⟨-, why, -, rfl⟩ | ⟨-, i, -, hexec⟩⟩ := step_cases h
  · exact absurd (hfault.symm.trans hk) nofun
  · cases hk; rfl
  · exact (execEnds_of_next hexec).eq_raise_of_fault hfault hk

end Sys2Proof.Claims

/-!
# The instructions' effects (42_alu.md to 45_control_transfer.md)

What each instruction answers from empty staged slots, in the spec's own arithmetic.
-/

namespace Sys2Proof.Machine

open Sys2Proof.Claims

/-! ### The flags of the reference ALU (42_alu.md R148) -/

section Alu

variable {n : Nat}

/-- Overflow of an 8-bit value, with its two limits. -/
theorem signedOverflow_eight (t : Int) : signedOverflow 8 t = true ↔ t < -128 ∨ 127 < t := by
  simp [signedOverflow]

/-- The reference ALU's overflow of an addition is the library's. -/
theorem aluAdd_v (a b : BitVec n) : (aluAdd a b).v = a.saddOverflow b := by
  rw [Bool.eq_iff_iff]
  simp only [aluAdd, signedOverflow, BitVec.saddOverflow, Bool.or_eq_true, decide_eq_true_eq]
  omega

/-- The reference ALU's overflow of a subtraction is the library's. -/
theorem aluSub_v (a b : BitVec n) : (aluSub a b).v = a.ssubOverflow b := by
  rw [Bool.eq_iff_iff]
  simp only [aluSub, signedOverflow, BitVec.ssubOverflow, Bool.or_eq_true, decide_eq_true_eq]
  omega

theorem aluAdd_result (a b : BitVec n) : (aluAdd a b).result = a + b :=
  (BitVec.ofNat_add_ofNat ..).symm.trans (by simp)

theorem aluSub_result (a b : BitVec n) : (aluSub a b).result = a - b := by
  simp [aluSub, Int.sub_eq_add_neg, BitVec.ofInt_add, BitVec.ofInt_neg, BitVec.sub_eq_add_neg]

end Alu

section Effects

variable {s : State}

theorem toNat_add_one (a : Addr) : (a + 1).toNat = (a.toNat + 1) % 256 :=
  BitVec.toNat_add a 1

/-- An addition from empty staged slots (42_alu.md R149, R154). -/
theorem aluOp_adds (hq : s.Quiet) {b : OperandB} {v : Data} (hb : s.operandB b = some v) :
    Answers (aluOp aluAdd b s) (Adds s v) :=
  ⟨_, aluOp_quiet hq hb, BitVec.toNat_ofNat .., decide_eq_true_iff, signedOverflow_eight _, toNat_add_one s.pc, rfl⟩

/-- A subtraction from empty staged slots (42_alu.md R150, R155). -/
theorem aluOp_subtracts (hq : s.Quiet) {b : OperandB} {v : Data} (hb : s.operandB b = some v) :
    Answers (aluOp aluSub b s) (Subtracts s v) := by
  refine ⟨_, aluOp_quiet hq hb, ?_, decide_eq_true_iff, signedOverflow_eight _, toNat_add_one s.pc, rfl⟩
  have hsub : (s.acc - v).toNat = (256 - v.toNat + s.acc.toNat) % 256 := BitVec.toNat_sub ..
  have hv : v.toNat < 256 := v.isLt
  rw [aluSub_result, hsub]
  omega

/-- A function of the ALU that combines bits and clears both flags, from empty staged slots (42_alu.md R151 to R153, R156 to
R158). -/
theorem aluOp_combinesBits {f : Data → Data → AluResult} {g : Bool → Bool → Bool}
    (hbits : ∀ (a b : Data) (k : Nat), (f a b).result.getLsbD k = g (a.getLsbD k) (b.getLsbD k))
    (hc : ∀ a b, (f a b).c = false) (hv : ∀ a b, (f a b).v = false) (hq : s.Quiet) {b : OperandB} {v : Data}
    (hb : s.operandB b = some v) : Answers (aluOp f b s) (CombinesBits g s v) :=
  ⟨_, aluOp_quiet hq hb, fun k _ => hbits s.acc v k, hc s.acc v, hv s.acc v, toNat_add_one s.pc, rfl⟩

theorem aluOp_and (hq : s.Quiet) {b : OperandB} {v : Data} (hb : s.operandB b = some v) :
    Answers (aluOp aluAnd b s) (CombinesBits and s v) :=
  aluOp_combinesBits (fun _ _ _ => BitVec.getLsbD_and) (fun _ _ => rfl) (fun _ _ => rfl) hq hb

theorem aluOp_or (hq : s.Quiet) {b : OperandB} {v : Data} (hb : s.operandB b = some v) :
    Answers (aluOp aluOr b s) (CombinesBits or s v) :=
  aluOp_combinesBits (fun _ _ _ => BitVec.getLsbD_or) (fun _ _ => rfl) (fun _ _ => rfl) hq hb

theorem aluOp_xor (hq : s.Quiet) {b : OperandB} {v : Data} (hb : s.operandB b = some v) :
    Answers (aluOp aluXor b s) (CombinesBits xor s v) :=
  aluOp_combinesBits (fun _ _ _ => BitVec.getLsbD_xor) (fun _ _ => rfl) (fun _ _ => rfl) hq hb

/-- An ALU op on a register that does not exist (42_alu.md R146, 10_state.md R22). -/
theorem aluOp_missing (f : Data → Data → AluResult) {idx : RegIdx} (h : s.params.nreg ≤ idx.toNat) :
    aluOp f (.register idx) s = .next { s with fault := some (.badRegisterIndex idx) } := by
  simp only [aluOp, State.register_of_le h]; rfl

/-- A step that fetches a STORE whose port completes (44_memory_ops.md R181). -/
theorem step_store (hrun : s.CanRun) (hq : s.Quiet) (hw : s.fetchWaits = 0) (hdec : decode s.wordAtPc = .instr .store)
    (hport : s.storeWaits = 0) :
    step s = .next { s.fetched.ended with dmem := Memory.write s.dmem s.dmar s.acc, pc := s.pc + 1 } := by
  rw [step_ready hrun hw, hdec]
  exact execStore_ready (s := s.fetched) hq hport

/-- A step that fetches a LOAD whose port is ready (44_memory_ops.md R180). -/
theorem step_load (hrun : s.CanRun) (hq : s.Quiet) (hw : s.fetchWaits = 0) (hdec : decode s.wordAtPc = .instr .load)
    (hport : s.loadWaits = 0) :
    step s = .next { s.fetched.ended with acc := Memory.read s.dmem s.dmar, pc := s.pc + 1 } := by
  rw [step_ready hrun hw, hdec]
  exact execLoad_ready (s := s.fetched) hq hport

end Effects

end Sys2Proof.Machine

namespace Sys2Proof.Claims

open Sys2Proof.Machine

/-- Settles O6: both forms are `aluOp` of `aluAdd`. -/
theorem addInstructionsAdd : Obligations.AddInstructionsAdd :=
  fun _ hq => ⟨fun imm => aluOp_adds hq (b := .immediate imm) rfl,
    fun idx hidx => aluOp_adds hq (b := .register idx) (State.register_of_lt hidx)⟩

/-- Settles O7: both forms are `aluOp` of `aluSub`. -/
theorem subInstructionsSubtract : Obligations.SubInstructionsSubtract :=
  fun _ hq => ⟨fun imm => aluOp_subtracts hq (b := .immediate imm) rfl,
    fun idx hidx => aluOp_subtracts hq (b := .register idx) (State.register_of_lt hidx)⟩

/-- Settles O8: the six forms are `aluOp` of the three bitwise functions. -/
theorem logicalInstructionsCombineBits : Obligations.LogicalInstructionsCombineBits := by
  intro s hq
  refine ⟨fun imm => ?_, fun idx hidx => ?_⟩
  · have hb : s.operandB (.immediate imm) = some imm := rfl
    exact ⟨aluOp_and hq hb, aluOp_or hq hb, aluOp_xor hq hb⟩
  · have hb : s.operandB (.register idx) = some (Regs.read s.x idx) := State.register_of_lt hidx
    exact ⟨aluOp_and hq hb, aluOp_or hq hb, aluOp_xor hq hb⟩

/-- Settles O9: the library's form of each overflow by sign bits; bit 7 is the sign bit. -/
theorem signedOverflowFormsAgree : Obligations.SignedOverflowFormsAgree := by
  intro a b
  have hmsb (c : Data) : c.getLsbD 7 = c.msb := (BitVec.msb_eq_getLsbD_last c).symm
  simp only [hmsb, aluAdd_v, aluSub_v, aluAdd_result, aluSub_result, BitVec.saddOverflow_eq, BitVec.ssubOverflow_eq]
  constructor
  · simp
  · cases a.msb <;> simp

/-- Settles O11: seven forms, each of which asks for its register first. -/
theorem missingRegisterFaults : Obligations.MissingRegisterFaults := by
  intro i idx s hi h
  cases i with
  | add | sub | and | or | xor => cases hi; exact aluOp_missing _ h
  | get => cases hi; simp only [exec, execGet, State.register_of_le h]; rfl
  | put => cases hi; simp only [exec, execPut, State.register_of_le h]; rfl
  | _ => cases hi

/-- Settles O12: the three moves from empty slots; PUT's is the law of one register write. -/
theorem setGetPutMoveTheValue : Obligations.SetGetPutMoveTheValue :=
  fun s hq => ⟨execSet_quiet hq, fun idx hidx =>
    ⟨execGet_quiet hq hidx, _, execPut_quiet hq hidx, fun j => Regs.read_write s.x idx j s.acc, rfl⟩⟩

/-- Settles O13: an address register is a view of its register, as wide as an address. -/
theorem putMovesAddressRegisters : Obligations.PutMovesAddressRegisters := by
  intro s idx hq hidx
  refine ⟨_, execPut_quiet hq hidx, ?_, ?_⟩
  · simp only [State.dmar, State.ended, Regs.read_write, BitVec.setWidth_eq]
  · simp only [State.imar, State.ended, Regs.read_write, BitVec.setWidth_eq]

/-- Settles O15: `execLoad_ready`. -/
theorem loadReadsTheCommittedWord : Obligations.LoadReadsTheCommittedWord :=
  fun _ => execLoad_ready

/-- Settles O16: `execLoad_waiting`. -/
theorem loadStallsWhileWaiting : Obligations.LoadStallsWhileWaiting :=
  fun _ _ hw => execLoad_waiting hw

/-- Settles O17: the commit of the staged store is the memory law of one write. -/
theorem storeWritesAtDmar : Obligations.StoreWritesAtDmar :=
  fun s hq hwf hw => ⟨_, execStore_ready hq hw, fun a => Memory.read_write hwf s.dmar a s.acc, rfl⟩

/-- Settles O18: `execStore_waiting`. -/
theorem storeStallsWhileWaiting : Obligations.StoreStallsWhileWaiting :=
  fun _ _ hw => execStore_waiting hw

/-- Settles O20: the STORE's step leaves `dmar`, so the LOAD reads the word just written. -/
theorem storeThenLoadReturnsValue : Obligations.StoreThenLoadReturnsValue := by
  intro s t hq hwf hws hstore hports hstep hroom hwt hload hportt
  obtain ⟨hrun, -⟩ := step_cases hstep
  cases (step_store hrun hq hws hstore hports).symm.trans hstep
  obtain ⟨hhalted, hfault, -⟩ := hrun
  exact ⟨_, step_load ⟨hhalted, hfault, hroom⟩ hq hwt hload hportt,
    (Memory.read_write hwf s.dmar s.dmar s.acc).trans (if_pos rfl), rfl⟩

/-- Settles O21: the two conditions on the committed carry. -/
theorem carryBranchesTestTheCarry : Obligations.CarryBranchesTestTheCarry := by
  intro s target hq
  refine ⟨(branchOp_quiet hq condCarryClear target).trans ?_, branchOp_quiet hq condCarrySet target⟩
  simp only [condCarryClear, Bool.not_eq_true']

/-- Settles O22: the two conditions on the committed overflow. -/
theorem overflowBranchesTestTheOverflow : Obligations.OverflowBranchesTestTheOverflow := by
  intro s target hq
  refine ⟨(branchOp_quiet hq condOverflowClear target).trans ?_, branchOp_quiet hq condOverflowSet target⟩
  simp only [condOverflowClear, Bool.not_eq_true']

/-- Settles O23: a jump stages only a pc. -/
theorem jumpsReachTheirTarget : Obligations.JumpsReachTheirTarget :=
  fun s offset hq =>
    ⟨⟨_, endCompleted_nextPc hq (s.pc + offset), BitVec.toNat_add .., rfl⟩,
      ⟨_, endCompleted_nextPc hq (s.pc + s.imar), BitVec.toNat_add .., rfl⟩, endCompleted_nextPc hq s.imar⟩

/-- Settles O25: HALT is `endHalted`. -/
theorem haltSetsHaltedOnly : Obligations.HaltSetsHaltedOnly :=
  fun _ => rfl

/-- Settles O47: the commit is `Option.getD` of each slot, place by place for the registers. -/
theorem registerFileCommitMakesStagedCurrent : Obligations.RegisterFileCommitMakesStagedCurrent := by
  intro s
  refine ⟨fun v h => ?_, fun h => ?_, fun q h => ?_, fun h => ?_, fun i v h => ?_, fun i h => ?_, rfl, rfl,
    Regs.read_fill none, BitVec.setWidth_eq _, BitVec.setWidth_eq _⟩
  all_goals simp [h]

end Sys2Proof.Claims

/-!
# The step as the stage sequencer's iteration (40_pipeline_cycle.md R131, 46_run_loop.md R210)

`exec` of an instruction is what the stages after Decode do with its decoded record.
-/

namespace Sys2Proof.Machine

section Refinement

variable {W : Widths} {c : Collaborators W} {s : State W}

/-- What an iteration makes of its cycle (46_run_loop.md R210). -/
def endIteration : CycleOutcome W × State W → State W
  | (.fault _, s) => s
  | (.halted, s) => s.countCycle
  | (.stalled, s) => s.countCycle
  | (.completed, s) => s.countCycle.commitPhase

theorem iterate_eq_endIteration (c : Collaborators W) (s : State W) : (iterate c s).2 = endIteration (cycle c s) := by
  unfold iterate
  rcases cycle c s with ⟨_ | _ | _ | k, u⟩ <;> rfl

/-- An ALU op on a register, from its stages. -/
theorem aluOp_register_eq_afterDecode (func : FuncCode) (idx : RegIdx) (s : State) :
    aluOp (referenceAlu · · func) (.register idx) s =
      .next (endIteration (afterDecode .reference (.record (.aluReg func idx)) s)) := by
  cases hr : s.register idx with
  | some v => simp only [aluOp, afterDecode, executeStage, hr]; rfl
  | none => simp only [aluOp, afterDecode, executeStage, hr]; rfl

/-- The meaning of an instruction other than HALT, from its stages. -/
theorem exec_eq_afterDecode {i : Instr} (hi : i ≠ .halt) (s : State) :
    exec i s = .next (endIteration (afterDecode .reference (.record (decodedOf i)) s)) := by
  cases i with
  | addi | subi | andi | ori | xori | set | bcc | bcs | bvc | bvs | jmpi | jmpr | jmpa => rfl
  | add idx => exact aluOp_register_eq_afterDecode 0 idx s
  | sub idx => exact aluOp_register_eq_afterDecode 1 idx s
  | and idx => exact aluOp_register_eq_afterDecode 2 idx s
  | or idx => exact aluOp_register_eq_afterDecode 3 idx s
  | xor idx => exact aluOp_register_eq_afterDecode 4 idx s
  | get idx | put idx =>
    cases hr : s.register idx with
    | some v => simp only [exec, execGet, execPut, decodedOf, afterDecode, executeStage, hr]; rfl
    | none => simp only [exec, execGet, execPut, decodedOf, afterDecode, executeStage, hr]; rfl
  | load =>
    cases hw : s.loadWaits with
    | zero =>
      simp only [exec, execLoad, State.loadPort_ready hw, decodedOf,
        afterDecode_of_proceed rfl (memoryStage_load_ready hw) rfl]
      rfl
    | succ n => rw [execLoad_waiting hw, decodedOf, afterDecode_of_stall rfl (memoryStage_load_waiting hw)]; rfl
  | store =>
    cases hw : s.storeWaits with
    | zero =>
      simp only [exec, execStore, State.storePort_ready hw, decodedOf,
        afterDecode_of_proceed rfl (memoryStage_store_ready hw) rfl]
      rfl
    | succ n => rw [execStore_waiting hw, decodedOf, afterDecode_of_stall rfl (memoryStage_store_waiting hw)]; rfl
  | halt => exact absurd rfl hi

/-- The reference decoder's answer by the instruction the word decodes to. -/
theorem referenceDecode_instr {w : InstrWord} {i : Instr} (h : decode w = .instr i) :
    referenceDecode w = .record (decodedOf i) := by
  simp only [referenceDecode, h]

theorem referenceDecode_reserved {w : InstrWord} {why : Reserved} (h : decode w = .reserved why) :
    referenceDecode w = .reserved := by
  simp only [referenceDecode, h]

theorem decodedOf_ne_halt {i : Instr} (hi : i ≠ .halt) : decodedOf i ≠ .halt := by
  cases i with
  | halt => exact absurd rfl hi
  | _ => nofun

/-- A cycle with a ready fetch whose record is no halt: the stages after Decode. -/
theorem cycle_of_record {r : Decoded W} (hw : s.fetchWaits = 0) (hd : c.decode s.wordAtPc = .record r)
    (hr : r ≠ .halt) : cycle c s = afterDecode c (.record r) s.fetched := by
  rw [cycle_ready hw, hd]
  cases r with
  | halt => exact absurd rfl hr
  | _ => rfl

/-- A step of a machine that can run is one iteration (40_pipeline_cycle.md R131). -/
theorem step_eq_iterate {s : State} (hrun : s.CanRun) : step s = .next (iterate .reference s).2 := by
  cases hw : s.fetchWaits with
  | succ n => rw [step_waiting hrun hw, iterate_waiting hw]
  | zero =>
    rw [step_ready hrun hw]
    cases hd : decode s.wordAtPc with
    | reserved why =>
      have hcycle := cycle_ready (c := .reference) hw
      rw [show Collaborators.reference.decode s.wordAtPc = .reserved from referenceDecode_reserved hd] at hcycle
      rw [iterate_eq_endIteration, hcycle]
      rfl
    | instr i =>
      have hd' : Collaborators.reference.decode s.wordAtPc = .record (decodedOf i) := referenceDecode_instr hd
      by_cases hi : i = .halt
      · subst hi
        rw [iterate_of_halt hw hd']
        rfl
      · rw [iterate_eq_endIteration, cycle_of_record hw hd' (decodedOf_ne_halt hi)]
        exact exec_eq_afterDecode hi s.fetched

/-- An iteration that fetches an unrecognised sub-operation faults in the stage of its category (43_regfile_ops.md R173,
44_memory_ops.md R182, 45_control_transfer.md R199). -/
theorem iterate_of_unknown {u : UnknownSub} (hw : s.fetchWaits = 0) (hd : c.decode s.wordAtPc = .unknown u) :
    iterate c s = (.fault (.unknownSubOp u), s.fetched.raise (.unknownSubOp u)) := by
  have hafter : afterDecode c (.unknown u) s.fetched = (.fault (.unknownSubOp u), s.fetched.raise (.unknownSubOp u)) := by
    cases u <;> rfl
  have hcycle : cycle c s = (.fault (.unknownSubOp u), s.fetched.raise (.unknownSubOp u)) := by
    rw [cycle_ready hw, hd]
    exact hafter
  simp only [iterate, hcycle]

end Refinement

/-! ### The counter and the parameters along a run (46_run_loop.md R211 to R214) -/

section Counts

variable {W : Widths} {c : Collaborators W} {bound : Option Nat} {take : Nat} {s t u : State W}
  {snap : Snapshot W} {snaps : List (Snapshot W)}

/-- No stage changes the counter or a parameter. -/
def State.SameCount (s u : State W) : Prop := u.cycleCount = s.cycleCount ∧ u.params = s.params

theorem afterDecode_sameCount (c : Collaborators W) (d : DecodeAnswer W) (s : State W) :
    s.SameCount (afterDecode c d s).2 := by
  cases d with
  | reserved => exact ⟨rfl, rfl⟩
  | unknown sub => cases sub <;> exact ⟨rfl, rfl⟩
  | record r =>
    cases r with
    | memLoad =>
      cases hw : s.loadWaits with
      | zero => rw [afterDecode_of_proceed rfl (memoryStage_load_ready hw) rfl]; exact ⟨rfl, rfl⟩
      | succ n => rw [afterDecode_of_stall rfl (memoryStage_load_waiting hw)]; exact ⟨rfl, rfl⟩
    | memStore =>
      cases hw : s.storeWaits with
      | zero => rw [afterDecode_of_proceed rfl (memoryStage_store_ready hw) rfl]; exact ⟨rfl, rfl⟩
      | succ n => rw [afterDecode_of_stall rfl (memoryStage_store_waiting hw)]; exact ⟨rfl, rfl⟩
    | aluReg func idx | rfGet idx | rfPut idx =>
      cases hr : s.register idx <;> simp only [afterDecode, executeStage, hr, memoryStage, pcUpdateStage] <;>
        exact ⟨rfl, rfl⟩
    | aluImm | rfSet | branch | jumpImmRel | jumpRegRel | jumpRegAbs | halt => exact ⟨rfl, rfl⟩

theorem cycle_sameCount (c : Collaborators W) (s : State W) : s.SameCount (cycle c s).2 := by
  cases hw : s.fetchWaits with
  | succ n => rw [cycle_waiting hw]; exact ⟨rfl, rfl⟩
  | zero =>
    rw [cycle_ready hw]
    split
    · exact ⟨rfl, rfl⟩
    · exact ⟨rfl, rfl⟩
    · exact afterDecode_sameCount c _ s.fetched

/-- No iteration changes a parameter. -/
theorem iterate_params (c : Collaborators W) (s : State W) : (iterate c s).2.params = s.params := by
  obtain ⟨-, hparams⟩ := cycle_sameCount c s
  rw [iterate_eq_endIteration, ← hparams]
  rcases cycle c s with ⟨_ | _ | _ | k, u⟩ <;> rfl

/-- An iteration counts its cycle unless it faults (46_run_loop.md R211, R222). -/
def IterationOutcome.cycles : IterationOutcome W → Nat
  | .continuing _ => 1
  | .halted _ => 1
  | .fault _ => 0

theorem iterate_cycleCount (c : Collaborators W) (s : State W) :
    (iterate c s).2.cycleCount = s.cycleCount + (iterate c s).1.cycles := by
  obtain ⟨hcount, -⟩ := cycle_sameCount c s
  rw [← hcount]
  unfold iterate
  rcases cycle c s with ⟨_ | _ | _ | k, u⟩ <;> rfl

/-- The counter after a stretch of iterations that continue. -/
theorem Continues.cycleCount (h : Continues c bound snaps s u) : u.cycleCount = s.cycleCount + snaps.length := by
  induction h with
  | refl s => rfl
  | @cons _ snaps s t _ _ hi _ ih =>
    have ht := iterate_cycleCount c s
    rw [hi] at ht
    have ht' : t.cycleCount = s.cycleCount + 1 := ht
    rw [ih, ht', List.length_cons]
    omega

theorem runLoop_params : (runLoop c bound take s).final.params = s.params :=
  runLoop_final_of_iterate (P := fun t => t.params = s.params) (fun t ht => (iterate_params c t).trans ht) rfl

/-- A run never counts past its bound (46_run_loop.md R214). -/
theorem runLoop_cycleCount_le {b : Nat} (h : s.cycleCount ≤ b) : (runLoop c (some b) take s).final.cycleCount ≤ b := by
  induction take generalizing s with
  | zero => cases he : endBeforeCycle (some b) s <;> simpa only [runLoop, he] using h
  | succ take ih =>
    cases he : endBeforeCycle (some b) s with
    | some e => rw [runLoop_of_end he]; exact h
    | none =>
      obtain ⟨-, hbound⟩ := endBeforeCycle_eq_none.mp he
      have hlt : s.cycleCount < b := Nat.lt_of_not_le (of_decide_eq_false hbound)
      have hcount := iterate_cycleCount c s
      obtain ⟨t, hi, -⟩ | ⟨-, -, hi⟩ | ⟨_, t, hi, -⟩ := iterate_cases c s <;> rw [hi] at hcount
      · rw [runLoop_succ_of_continuing he hi]
        exact ih (hcount.trans_le hlt)
      · rw [runLoop_succ_of_halted he hi]
        exact hcount.trans_le hlt
      · rw [runLoop_succ_of_fault he hi]
        exact hcount.trans_le h

/-- The counts a run from a machine of count `n` shows: the final one by the snapshots and a halt's own cycle, and each
snapshot's by its place (46_run_loop.md R212, R213). -/
structure Run.CountsFrom (n : Nat) (run : Run W) : Prop where
  halted : ∀ r, run.ending = .halted r → run.final.cycleCount = n + run.snapshots.length + 1
  other : (∀ r, run.ending ≠ .halted r) → run.final.cycleCount = n + run.snapshots.length
  snapshots : ∀ k snap, run.snapshots[k]? = some snap → snap.cycleCount = n + k + 1 ∧ snap.halted = false

/-- A run of no cycle that does not halt. -/
theorem Run.countsFrom_nil {e : RunEnd W} (he : ∀ r, e ≠ .halted r) :
    Run.CountsFrom s.cycleCount ⟨[], e, s⟩ :=
  ⟨fun r h => absurd h (he r), fun _ => rfl, nofun⟩

/-- A cycle that continues, before a run from its state. -/
theorem Run.CountsFrom.cons {n : Nat} {run : Run W} (h : Run.CountsFrom (n + 1) run) (hcount : snap.cycleCount = n + 1)
    (hhalted : snap.halted = false) : Run.CountsFrom n ⟨snap :: run.snapshots, run.ending, run.final⟩ where
  halted r hr := by rw [h.halted r hr, List.length_cons]; omega
  other hr := by rw [h.other hr, List.length_cons]; omega
  snapshots k q hq := by
    cases k with
    | zero => cases hq; exact ⟨hcount, hhalted⟩
    | succ k =>
      obtain ⟨hk, hh⟩ := h.snapshots k q hq
      exact ⟨by omega, hh⟩

/-- An unhalted machine's run ends before a cycle by something other than a halt. -/
theorem endBeforeCycle_ne_halted {e : RunEnd W} (hs : s.halted = false) (he : endBeforeCycle bound s = some e)
    (r : Snapshot W) : e ≠ .halted r := by
  obtain ⟨k, -, rfl⟩ | ⟨-, hh, -⟩ | ⟨-, -, -, rfl⟩ | ⟨-, -, -, -, rfl⟩ := endBeforeCycle_cases he
  · nofun
  · exact absurd (hs.symm.trans hh) nofun
  · nofun
  · nofun

theorem runLoop_countsFrom (hs : s.halted = false) : Run.CountsFrom s.cycleCount (runLoop c bound take s) := by
  induction take generalizing s with
  | zero =>
    cases he : endBeforeCycle bound s with
    | some e => rw [runLoop_of_end he]; exact Run.countsFrom_nil (endBeforeCycle_ne_halted hs he)
    | none => rw [runLoop_zero he]; exact Run.countsFrom_nil nofun
  | succ take ih =>
    cases he : endBeforeCycle bound s with
    | some e => rw [runLoop_of_end he]; exact Run.countsFrom_nil (endBeforeCycle_ne_halted hs he)
    | none =>
      have hcount := iterate_cycleCount c s
      obtain ⟨t, hi, hhalted, -⟩ | ⟨-, -, hi⟩ | ⟨k, t, hi, -⟩ := iterate_cases c s <;> rw [hi] at hcount
      · have ht : t.halted = false := hhalted.trans hs
        have hrun := ih ht
        rw [show t.cycleCount = s.cycleCount + 1 from hcount] at hrun
        rw [runLoop_succ_of_continuing he hi]
        exact hrun.cons hcount ht
      · rw [runLoop_succ_of_halted he hi]
        exact ⟨fun _ _ => hcount, fun h => absurd rfl (h _), nofun⟩
      · rw [runLoop_succ_of_fault he hi]
        exact ⟨nofun, fun _ => hcount, nofun⟩

/-- A run given a cycle for each count up to its bound is not abandoned (46_run_loop.md R214). -/
theorem runBounded_ending_ne_abandoned {b : Nat} (h : s.cycleCount ≤ b) : (runBounded c b s).ending ≠ .abandoned := by
  intro he
  obtain ⟨u, hcont, hend⟩ := runLoop_cases c (some b) (b - s.cycleCount) s
  change (runLoop c (some b) (b - s.cycleCount) s).ending = .abandoned at he
  simp only [Run.EndsFrom, he] at hend
  obtain ⟨-, -, hbound, hlen⟩ := hend
  have hcount := hcont.cycleCount
  have hlt : ¬ b ≤ u.cycleCount := of_decide_eq_false hbound
  omega

/-- A bounded run that times out leaves an unhalted, unfaulted machine exactly at its bound (46_run_loop.md R214). -/
theorem runLoop_final_of_timedOut {b : Nat} (h : s.cycleCount ≤ b) {r : Snapshot W}
    (he : (runLoop c (some b) take s).ending = .timedOut r) :
    (runLoop c (some b) take s).final.halted = false ∧ (runLoop c (some b) take s).final.fault = none ∧
      (runLoop c (some b) take s).final.cycleCount = b := by
  have hle := runLoop_cycleCount_le (c := c) (take := take) h
  obtain ⟨u, -, hend⟩ := runLoop_cases c (some b) take s
  simp only [Run.EndsFrom, he] at hend
  obtain ⟨hfinal, hhalted, hfault, -, _, hb, hcount⟩ := hend
  cases hb
  rw [hfinal] at hle ⊢
  exact ⟨hhalted, hfault, le_antisymm hle hcount⟩

/-- An unbounded counter is never full (93 U20). -/
theorem runLoop_ending_ne_counterFull (h : s.params.cycleWidth = none) :
    (runLoop c bound take s).ending ≠ .counterFull := by
  intro he
  have hparams := runLoop_params (c := c) (bound := bound) (take := take) (s := s)
  obtain ⟨u, -, hend⟩ := runLoop_cases c bound take s
  simp only [Run.EndsFrom, he] at hend
  obtain ⟨hfinal, -, -, -, hroom⟩ := hend
  rw [hfinal] at hparams
  rw [State.roomFor_unbounded (by rw [hparams, h])] at hroom
  cases hroom

end Counts

end Sys2Proof.Machine

namespace Sys2Proof.Claims

open Sys2Proof.Machine

/-- Settles O41: the state by `step_eq_iterate`, the outcome by `iterate_cases`. -/
theorem stepAgreesWithStageSequencer : Obligations.StepAgreesWithStageSequencer := by
  intro s hrun
  refine ⟨step_eq_iterate hrun, ?_⟩
  obtain ⟨hhalted, hfault, -⟩ := hrun
  obtain ⟨t, hi, hh, hf⟩ | ⟨-, -, hi⟩ | ⟨k, t, hi, hh, hf⟩ := iterate_cases Collaborators.reference s <;> rw [hi]
  · exact ⟨hh.trans hhalted, hf.trans hfault, rfl⟩
  · exact ⟨rfl, hfault, rfl⟩
  · exact ⟨hh.trans hhalted, hf⟩

/-- Settles O43: PC-update stages the branch's pc, and the commit of empty slots so filled is
`State.commit_conditionallyBranch`. -/
theorem sequencerBranchesOnCommittedStatus : Obligations.SequencerBranchesOnCommittedStatus := by
  intro W c s code target hq hw hd
  rw [iterate_of_afterDecode hw hd nofun rfl]
  exact State.commit_conditionallyBranch (s := s.fetched) hq (c.cond code s.st) target

/-- Settles O45: Execute, Memory-access or PC-update meets it, with nothing staged before. -/
theorem unknownSubOperationFaults : Obligations.UnknownSubOperationFaults :=
  fun _ _ _ _ => iterate_of_unknown

/-- Settles O49: each continuing iteration counts one, from below the bound, and keeps the parameters. -/
theorem boundedRunEndsByTheBound : Obligations.BoundedRunEndsByTheBound :=
  fun _ _ _ _ h => ⟨runBounded_ending_ne_abandoned h, runLoop_cycleCount_le h, fun _ => runLoop_final_of_timedOut h,
    runLoop_ending_ne_counterFull⟩

/-- Settles O50, by induction on the cycles consumed: each continuing one adds a snapshot and a count. -/
theorem snapshotsCountTheCycles : Obligations.SnapshotsCountTheCycles := by
  intro W c bound take s ⟨hhalted, _, _⟩
  have h := runLoop_countsFrom (c := c) (bound := bound) (take := take) hhalted
  exact ⟨h.halted, h.other, h.snapshots⟩

/-- Settles O55: the fault is tested first, then the halt, both before any cycle. -/
theorem runOnStoppedMachineTakesNoCycle : Obligations.RunOnStoppedMachineTakesNoCycle := by
  intro W c bound take s
  refine ⟨fun hhalted hfault => runLoop_of_end ?_, fun k hfault => runLoop_of_end ?_⟩
  · simp only [endBeforeCycle, hfault, hhalted, if_true]
  · simp only [endBeforeCycle, hfault]

end Sys2Proof.Claims

/-!
# The host's loads (20_memory.md section 5)

What a memory reads after a word list is written to it, and that bytes pack to the words they came from.
-/

namespace Sys2Proof.Machine

open Sys2Proof.Claims

section Load

variable {w n : Nat} {m : Memory w} {a b : BitVec n} {ws : List (BitVec w)}

/-- The address `k + 1` places on is `k` places on from the next. -/
theorem add_ofNat_succ (a : BitVec n) (k : Nat) : a + BitVec.ofNat n (k + 1) = a + 1 + BitVec.ofNat n k := by
  rw [BitVec.add_assoc, Nat.add_comm k 1, BitVec.ofNat_add]
  rfl

/-- Fewer than `2 ^ n` steps from an address never come back to it. -/
theorem ne_add_ofNat {k : Nat} (hpos : 0 < k) (hk : k < 2 ^ n) : a ≠ a + BitVec.ofNat n k := by
  intro h
  have hzero : BitVec.ofNat n k = 0 := BitVec.add_right_eq_self.mp h.symm
  have hk0 : k % 2 ^ n = 0 := by simpa using congrArg BitVec.toNat hzero
  rw [Nat.mod_eq_of_lt hk] at hk0
  omega

/-- An address that the list does not reach reads as before (20_memory.md R81). -/
theorem Memory.read_writeWords_of_ne (hwf : Memory.wf m n = true) (hb : ∀ k, k < ws.length → b ≠ a + BitVec.ofNat n k) :
    Memory.read (writeWords m a ws) b = Memory.read m b := by
  induction ws generalizing m a with
  | nil => rfl
  | cons v vs ih =>
    have hhead : b ≠ a := by simpa using hb 0 (Nat.succ_pos _)
    rw [writeWords, ih (Memory.wf_write hwf a v), Memory.read_write hwf, if_neg hhead]
    intro k hk
    rw [← add_ofNat_succ]
    exact hb (k + 1) (Nat.succ_lt_succ hk)

/-- A list no longer than the memory stands word by word from its address on, wrapping (20_memory.md R81). -/
theorem Memory.read_writeWords (hwf : Memory.wf m n = true) (hlen : ws.length ≤ 2 ^ n) {k : Nat} {v : BitVec w}
    (hk : ws[k]? = some v) : Memory.read (writeWords m a ws) (a + BitVec.ofNat n k) = v := by
  induction ws generalizing m a k with
  | nil => cases hk
  | cons u us ih =>
    rw [List.length_cons] at hlen
    have hwf' := Memory.wf_write hwf a u
    rw [writeWords]
    cases k with
    | zero =>
      cases hk
      rw [BitVec.add_zero, Memory.read_writeWords_of_ne hwf', Memory.read_write hwf, if_pos rfl]
      intro j hj
      rw [← add_ofNat_succ]
      exact ne_add_ofNat (Nat.succ_pos j) (by omega)
    | succ k =>
      rw [add_ofNat_succ]
      exact ih hwf' (by omega) hk

/-- The two bytes of a word, most significant first, make the word (20_memory.md R82). -/
theorem wordOfBytes_wordBytes (v : InstrWord) :
    wordOfBytes 16 [v.extractLsb' 8 8, v.extractLsb' 0 8] = v := by
  have hv : v.toNat < 65536 := v.isLt
  apply BitVec.eq_of_toNat_eq
  simp only [wordOfBytes, List.foldl, BitVec.toNat_ofNat, BitVec.extractLsb'_toNat, Nat.shiftRight_eq_div_pow]
  omega

theorem packFrom_wordBytes (ws : List InstrWord) : packFrom 16 2 [] (ws.flatMap wordBytes) = some ws := by
  induction ws with
  | nil => rfl
  | cons v vs ih => simp [wordBytes, packFrom, ih, wordOfBytes_wordBytes]

/-- Bytes of a two-byte word left over at the end are refused, whether a word is begun or not (20_memory.md R82). -/
theorem packFrom_two_eq_none (bytes : List Byte) :
    (bytes.length % 2 = 1 → packFrom n 2 [] bytes = none) ∧
      ∀ p, bytes.length % 2 = 0 → packFrom n 2 [p] bytes = none := by
  induction bytes with
  | nil => exact ⟨nofun, fun _ _ => rfl⟩
  | cons b rest ih =>
    obtain ⟨hbegun, hfresh⟩ := ih
    refine ⟨fun h => ?_, fun p h => ?_⟩
    · rw [List.length_cons] at h
      simp [packFrom, hfresh b (by omega)]
    · rw [List.length_cons] at h
      simp [packFrom, hbegun (by omega)]

end Load

section SideLoad

variable {W : Widths} {s : State W} {ws : List W.Word}

theorem State.sideLoad_of_beforeAnyRun (hlen : ws.length ≤ 2 ^ W.addr) (hrun : s.beforeAnyRun = true) :
    s.sideLoad ws = .ok { s with imem := writeWords s.imem s.params.loadBase ws } := by
  rw [State.sideLoad, if_pos hlen, if_pos hrun]

theorem State.sideLoad_duringRun (hlen : ws.length ≤ 2 ^ W.addr) (hrun : s.beforeAnyRun = false) :
    s.sideLoad ws = .error .duringRun := by
  rw [State.sideLoad, if_pos hlen, hrun]
  rfl

theorem State.sideLoad_tooLong (hlen : 2 ^ W.addr < ws.length) : s.sideLoad ws = .error .tooLong :=
  if_neg (Nat.not_le.mpr hlen)

end SideLoad

end Sys2Proof.Machine

namespace Sys2Proof.Claims

open Sys2Proof.Machine

/-- Settles O56: a list of at most 256 words never meets an address twice. -/
theorem sideLoadInstallsTheProgram : Obligations.SideLoadInstallsTheProgram := by
  intro s ws hwf
  refine ⟨fun hlen hrun => ?_, fun hlen => State.sideLoad_tooLong hlen,
    fun hlen hrun => State.sideLoad_duringRun hlen hrun⟩
  exact ⟨_, State.sideLoad_of_beforeAnyRun hlen hrun, rfl, fun k w => Memory.read_writeWords hwf hlen,
    fun a => Memory.read_writeWords_of_ne hwf⟩

/-- Settles O57: the words' bytes pack to the words, and an odd number of bytes to none. -/
theorem loadBinaryPacksBytesIntoWords : Obligations.LoadBinaryPacksBytesIntoWords := by
  intro s
  have hpack (bytes : List Byte) : packWords 16 bytes = packFrom 16 2 [] bytes := rfl
  refine ⟨fun ws => ?_, fun bytes h => ?_⟩
  · simp only [State.loadBinary, hpack, packFrom_wordBytes]
  · obtain ⟨hnone, -⟩ := packFrom_two_eq_none (n := 16) bytes
    simp only [State.loadBinary, hpack, hnone h]

end Sys2Proof.Claims

/-!
# Timing (20_memory.md R75, 70_reset_and_hazards.md R266)

An instruction's first steps stall, one for each wait its ports still give; then it does what it does without waits. Stalls
change only cells that `State.timeless` blanks, and a step that does not stall does the same to what `timeless` leaves.
-/

namespace Sys2Proof.Machine

open Sys2Proof.Claims

section Stalls

variable {i : Instr} {s t : State}

/-- Steps, and then one more. -/
theorem steps_succ_of_next {k : Nat} (h : steps k s = .next t) : steps (k + 1) s = step t := by
  rw [steps_add, h]
  simp only [steps]
  cases step t <;> rfl

/-- `s` after `k` stalls of its fetch, `n` waits left. -/
def State.fetchStalled (s : State) (k n : Nat) : State :=
  { s with cycleCount := s.cycleCount + k, stalled := true, stallLatch := true, imReq := some ⟨s.pc, n⟩ }

/-- A machine that can run can after `k` counted cycles, where the counter has room. -/
theorem State.CanRun.after {k : Nat} (h : s.CanRun) (hhalted : t.halted = s.halted) (hfault : t.fault = s.fault)
    (hp : t.params = s.params) (hc : t.cycleCount = s.cycleCount + k) (hroom : s.roomFor (k + 1) = true) : t.CanRun :=
  ⟨hhalted.trans h.halted, hfault.trans h.fault, (State.roomFor_after hp hc 1).trans hroom⟩

theorem State.fetchStalled_fetchWaits (s : State) (k n : Nat) : (s.fetchStalled k n).fetchWaits = n :=
  State.fetchWaits_of_imReq rfl

theorem State.fetchStalled_canRun {k : Nat} (n : Nat) (h : s.CanRun) (hroom : s.roomFor (k + 1) = true) :
    (s.fetchStalled k n).CanRun :=
  h.after rfl rfl rfl rfl hroom

/-- A fetch stalls once a step while waits are left (20_memory.md R70, R75). -/
theorem steps_fetchStalled {k n : Nat} (hrun : s.CanRun) (hroom : s.roomFor (k + 1) = true)
    (hw : s.fetchWaits = k + 1 + n) : steps (k + 1) s = .next (s.fetchStalled (k + 1) n) := by
  induction k generalizing n with
  | zero =>
    have hstep : step s = .next (s.fetchStalled 1 n) := step_waiting hrun (by omega)
    exact (steps_succ_of_next rfl).trans hstep
  | succ k ih =>
    have hprev := ih (n := n + 1) (State.roomFor_mono hroom (Nat.le_succ _)) (by omega)
    exact (steps_succ_of_next hprev).trans
      (step_waiting (State.fetchStalled_canRun _ hrun hroom) (State.fetchStalled_fetchWaits s (k + 1) (n + 1)))

/-- After its waits a fetch is ready, and the state fetched is what it would have been but for the count. -/
theorem exists_steps_fetchWaits (hrun : s.CanRun) (hroom : s.roomFor (s.fetchWaits + 1) = true) :
    ∃ t, steps s.fetchWaits s = .next t ∧ t.CanRun ∧ t.fetchWaits = 0 ∧
      t.fetched = { s.fetched with cycleCount := s.cycleCount + s.fetchWaits } := by
  cases hw : s.fetchWaits with
  | zero => exact ⟨s, rfl, hrun, hw, rfl⟩
  | succ k =>
    rw [hw] at hroom
    exact ⟨_, steps_fetchStalled hrun (State.roomFor_mono hroom (Nat.le_succ _)) (n := 0) hw,
      State.fetchStalled_canRun 0 hrun hroom, State.fetchStalled_fetchWaits s _ 0, rfl⟩

/-- The stalls the instruction at `pc` still meets: its fetch's, and its data port's if it is a LOAD or STORE
(20_memory.md R70 to R72). -/
def State.waitsLeft (s : State) : Nat := s.fetchWaits + s.dataWaits (referenceDecode s.wordAtPc)

theorem State.waitsLeft_load (h : decode s.wordAtPc = .instr .load) : s.waitsLeft = s.fetchWaits + s.loadWaits := by
  rw [State.waitsLeft, referenceDecode_instr h]; rfl

theorem State.waitsLeft_store (h : decode s.wordAtPc = .instr .store) : s.waitsLeft = s.fetchWaits + s.storeWaits := by
  rw [State.waitsLeft, referenceDecode_instr h]; rfl

theorem State.ports_ready_of_load (hw : s.waitsLeft = 0) (h : decode s.wordAtPc = .instr .load) :
    s.fetchWaits = 0 ∧ s.loadWaits = 0 :=
  Nat.add_eq_zero_iff.mp ((State.waitsLeft_load h).symm.trans hw)

theorem State.ports_ready_of_store (hw : s.waitsLeft = 0) (h : decode s.wordAtPc = .instr .store) :
    s.fetchWaits = 0 ∧ s.storeWaits = 0 :=
  Nat.add_eq_zero_iff.mp ((State.waitsLeft_store h).symm.trans hw)

/-- Between two attempts of a LOAD. -/
theorem State.waitsLeft_of_load {n : Nat} (h : decode s.wordAtPc = .instr .load) (hreq : s.imReq = some ⟨s.pc, 0⟩)
    (hdata : s.dmReq = some (.load s.dmar n)) : s.waitsLeft = n := by
  rw [State.waitsLeft_load h, State.fetchWaits_of_imReq hreq, State.loadWaits_of_dmReq hdata, Nat.zero_add]

/-- Between two attempts of a STORE. -/
theorem State.waitsLeft_of_store {n : Nat} (h : decode s.wordAtPc = .instr .store) (hreq : s.imReq = some ⟨s.pc, 0⟩)
    (hdata : s.dmReq = some (.store s.dmar s.acc n)) : s.waitsLeft = n := by
  rw [State.waitsLeft_store h, State.fetchWaits_of_imReq hreq, State.storeWaits_of_dmReq hdata, Nat.zero_add]

/-- Only a LOAD or a STORE has waits of its data port left. -/
theorem State.dataWaits_cases (s : State) :
    s.dataWaits (referenceDecode s.wordAtPc) = 0 ∨ decode s.wordAtPc = .instr .load ∨
      decode s.wordAtPc = .instr .store := by
  cases hd : decode s.wordAtPc with
  | reserved why => rw [referenceDecode_reserved hd]; exact .inl rfl
  | instr i =>
    rw [referenceDecode_instr hd]
    cases i with
    | load => exact .inr (.inl rfl)
    | store => exact .inr (.inr rfl)
    | _ => exact .inl rfl

/-- `t` is `s` some cycles on, with nothing else changed but the stall marks and the ports' requests. -/
def State.StalledFrom (s : State) (k : Nat) (t : State) : Prop :=
  t = { s with
    cycleCount := s.cycleCount + k, stalled := t.stalled, stallLatch := t.stallLatch, imReq := t.imReq, dmReq := t.dmReq }

/-- As an update of `s`, for substitution. -/
theorem State.StalledFrom.exists_eq {k : Nat} (h : s.StalledFrom k t) :
    ∃ stalled latch imReq dmReq, t = { s with
      cycleCount := s.cycleCount + k, stalled := stalled, stallLatch := latch, imReq := imReq, dmReq := dmReq } :=
  ⟨_, _, _, _, h⟩

theorem State.StalledFrom.params {k : Nat} (h : s.StalledFrom k t) : t.params = s.params := (congrArg State.params h :)

theorem State.StalledFrom.cycleCount {k : Nat} (h : s.StalledFrom k t) : t.cycleCount = s.cycleCount + k :=
  (congrArg State.cycleCount h :)

theorem State.StalledFrom.roomFor {k : Nat} (h : s.StalledFrom k t) (n : Nat) : t.roomFor n = s.roomFor (k + n) :=
  State.roomFor_after h.params h.cycleCount n

theorem State.StalledFrom.canRun {k : Nat} (h : s.StalledFrom k t) (hrun : s.CanRun)
    (hroom : s.roomFor (k + 1) = true) : t.CanRun :=
  hrun.after (congrArg State.halted h :) (congrArg State.fault h :) h.params h.cycleCount hroom

theorem State.StalledFrom.trans {u : State} {j k : Nat} (h : s.StalledFrom j t) (h' : t.StalledFrom k u) :
    s.StalledFrom (j + k) u := by
  rw [State.StalledFrom, h] at h'
  rw [State.StalledFrom, ← Nat.add_assoc]
  exact h'

/-- Timing is all that a stall changes. -/
theorem State.StalledFrom.timeless {k : Nat} (h : s.StalledFrom k t) : t.timeless = s.timeless :=
  (congrArg State.timeless h :)

/-- With a wait left the step stalls, and leaves one less. -/
theorem exists_step_of_waitsLeft {n : Nat} (hrun : s.CanRun) (hw : s.waitsLeft = n + 1) :
    ∃ t, step s = .next t ∧ s.StalledFrom 1 t ∧ t.waitsLeft = n := by
  cases hf : s.fetchWaits with
  | succ k =>
    have hw' : (k + 1) + s.dataWaits (referenceDecode s.wordAtPc) = n + 1 := by rw [← hf]; exact hw
    have hleft : (s.fetchStalled 1 k).waitsLeft = k + s.dataWaits (referenceDecode s.wordAtPc) :=
      congrArg (· + s.dataWaits (referenceDecode s.wordAtPc)) (s.fetchStalled_fetchWaits 1 k)
    exact ⟨s.fetchStalled 1 k, step_waiting hrun hf, rfl, by omega⟩
  | zero =>
    have hstep := step_ready hrun hf
    obtain hd | hd | hd := s.dataWaits_cases
    · rw [State.waitsLeft, hf, hd] at hw
      cases hw
    · rw [State.waitsLeft_load hd, hf, Nat.zero_add] at hw
      rw [hd] at hstep
      exact ⟨_, hstep.trans (execLoad_waiting (s := s.fetched) hw), rfl, State.waitsLeft_of_load hd rfl rfl⟩
    · rw [State.waitsLeft_store hd, hf, Nat.zero_add] at hw
      rw [hd] at hstep
      exact ⟨_, hstep.trans (execStore_waiting (s := s.fetched) hw), rfl, State.waitsLeft_of_store hd rfl rfl⟩

/-- The instruction's stalls, one a step, until no wait is left (20_memory.md R75). -/
theorem exists_steps_waitsLeft (hrun : s.CanRun) (hroom : s.roomFor (s.waitsLeft + 1) = true) :
    ∃ t, steps s.waitsLeft s = .next t ∧ s.StalledFrom s.waitsLeft t ∧ t.CanRun ∧ t.waitsLeft = 0 := by
  induction hw : s.waitsLeft generalizing s with
  | zero => exact ⟨s, rfl, rfl, hrun, hw⟩
  | succ n ih =>
    rw [hw] at hroom
    obtain ⟨t, hstep, ht, htw⟩ := exists_step_of_waitsLeft hrun hw
    have htroom : t.roomFor (n + 1) = true := by
      rw [ht.roomFor, Nat.add_comm]
      exact hroom
    have htrun : t.CanRun := ht.canRun hrun (State.roomFor_mono hroom (by omega))
    obtain ⟨u, hsteps, hu, hurun, huw⟩ := ih htrun (by rw [htw]; exact htroom) htw
    refine ⟨u, ?_, ?_, hurun, huw⟩
    · rw [Nat.add_comm, steps_add]
      simp only [steps, hstep, hsteps]
    · rw [Nat.add_comm]
      exact ht.trans hu

end Stalls

/-! ### What a step does to the cells that timing does not show (70_reset_and_hazards.md R266, R267) -/

section Timeless

variable {i : Instr} {s t s' t' : State}

/-- Both answer a next state, and the two are the same but for timing. -/
def AlikeButTiming (o o' : Host.Outcome State Fault Refusal) : Prop :=
  ∃ t t', o = .next t ∧ o' = .next t' ∧ t'.timeless = t.timeless

theorem aluOp_timeless (f : Data → Data → AluResult) (b : OperandB) (s : State) :
    AlikeButTiming (aluOp f b s) (aluOp f b s.timeless) := by
  cases b with
  | immediate imm => exact ⟨_, _, rfl, rfl, rfl⟩
  | register idx =>
    have hr : s.timeless.register idx = s.register idx := rfl
    simp only [aluOp, hr]
    cases s.register idx with
    | some v => exact ⟨_, _, rfl, rfl, rfl⟩
    | none => exact ⟨_, _, rfl, rfl, rfl⟩

/-- With its data port ready an instruction does the same to a machine whose timing is blanked. -/
theorem exec_timeless (i : Instr) (hload : i = .load → s.loadWaits = 0) (hstore : i = .store → s.storeWaits = 0) :
    AlikeButTiming (exec i s) (exec i s.timeless) := by
  cases ha : isAluOp i with
  | true =>
    obtain ⟨f, b, hexec, -⟩ := exec_eq_aluOp ha
    rw [hexec]
    exact aluOp_timeless f b s
  | false =>
    cases i with
    | addi | subi | andi | ori | xori | add | sub | and | or | xor => cases ha
    | set | bcc | bcs | bvc | bvs | jmpi | jmpr | jmpa | halt => exact ⟨_, _, rfl, rfl, rfl⟩
    | get idx | put idx =>
      have hr : s.timeless.register idx = s.register idx := rfl
      simp only [exec, execGet, execPut, hr]
      cases s.register idx with
      | some v => exact ⟨_, _, rfl, rfl, rfl⟩
      | none => exact ⟨_, _, rfl, rfl, rfl⟩
    | load =>
      have hblank : s.timeless.loadWaits = 0 := rfl
      simp only [exec, execLoad, State.loadPort_ready (hload rfl), State.loadPort_ready hblank]
      exact ⟨_, _, rfl, rfl, rfl⟩
    | store =>
      have hblank : s.timeless.storeWaits = 0 := rfl
      simp only [exec, execStore, State.storePort_ready (hstore rfl), State.storePort_ready hblank]
      exact ⟨_, _, rfl, rfl, rfl⟩

/-- With no wait left a step does the same to a machine whose timing is blanked. -/
theorem step_timeless (hrun : s.CanRun) (hwidth : s.params.cycleWidth = none) (hw : s.waitsLeft = 0) :
    AlikeButTiming (step s) (step s.timeless) := by
  have hblank : s.timeless.CanRun := ⟨hrun.halted, hrun.fault, State.roomFor_unbounded (s := s.timeless) hwidth 1⟩
  obtain ⟨hfetch, hdata⟩ := Nat.add_eq_zero_iff.mp hw
  have hword : s.timeless.wordAtPc = s.wordAtPc := rfl
  rw [step_ready hrun hfetch, step_ready hblank rfl, hword]
  cases hd : decode s.wordAtPc with
  | reserved why => exact ⟨_, _, rfl, rfl, rfl⟩
  | instr i =>
    rw [referenceDecode_instr hd] at hdata
    obtain ⟨u, v, hu, hv, huv⟩ := exec_timeless (s := s.fetched) i (by rintro rfl; exact hdata) (by rintro rfl; exact hdata)
    obtain ⟨u', v', hu', hv', huv'⟩ := exec_timeless (s := s.timeless.fetched) i (fun _ => rfl) (fun _ => rfl)
    have hvv : v' = v := Host.Outcome.next.inj (hv'.symm.trans hv)
    exact ⟨u, u', hu, hu', by rw [← huv, ← huv', hvv]⟩

theorem cycleWidth_of_timeless (h : s.timeless = t.timeless) : s.params.cycleWidth = t.params.cycleWidth :=
  (congrArg (·.params.cycleWidth) h :)

/-- A machine alike but for timing can run too, its counter being unbounded. -/
theorem State.CanRun.of_timeless (hrun : s.CanRun) (h : s.timeless = t.timeless) (hwidth : t.params.cycleWidth = none) :
    t.CanRun :=
  ⟨(congrArg State.halted h :).symm.trans hrun.halted, (congrArg State.fault h :).symm.trans hrun.fault,
    State.roomFor_unbounded hwidth 1⟩

/-- Whatever one step of `s` does, some steps of a machine alike but for timing do (70_reset_and_hazards.md R267): none if
the step stalls, its own stalls and one step otherwise. -/
theorem exists_steps_of_step (h : s.timeless = t.timeless) (hwidth : t.params.cycleWidth = none) (hs : step s = .next s') :
    ∃ n t', steps n t = .next t' ∧ s'.timeless = t'.timeless := by
  obtain ⟨hrun, -⟩ := step_cases hs
  have hswidth := (cycleWidth_of_timeless h).trans hwidth
  cases hw : s.waitsLeft with
  | succ n =>
    obtain ⟨u, hu, hstall, -⟩ := exists_step_of_waitsLeft hrun hw
    cases hu.symm.trans hs
    exact ⟨0, t, rfl, hstall.timeless.trans h⟩
  | zero =>
    have htrun := hrun.of_timeless h hwidth
    obtain ⟨t₀, hsteps, hstall, ht₀run, ht₀w⟩ := exists_steps_waitsLeft htrun (State.roomFor_unbounded hwidth _)
    have ht₀ : s.timeless = t₀.timeless := h.trans hstall.timeless.symm
    obtain ⟨u, u', hu, hu', huu⟩ := step_timeless hrun hswidth hw
    obtain ⟨v, v', hv, hv', hvv⟩ := step_timeless ht₀run ((cycleWidth_of_timeless ht₀).symm.trans hswidth) ht₀w
    cases hu.symm.trans hs
    rw [← ht₀] at hv'
    cases hv'.symm.trans hu'
    exact ⟨_, v, (steps_succ_of_next hsteps).trans hv, huu.symm.trans hvv⟩

end Timeless

end Sys2Proof.Machine

namespace Sys2Proof.Claims

open Sys2Proof.Machine

/-- Settles O58: the fetch's stalls by induction on their number, then a ready fetch. -/
theorem fetchStallsExactlyItsWaits : Obligations.FetchStallsExactlyItsWaits := by
  intro s i hrun hroom hdec
  refine ⟨?_, fun k n hkn => ?_⟩
  · obtain ⟨t, hsteps, htrun, hw, hfetched⟩ := exists_steps_fetchWaits hrun hroom
    have hword : t.wordAtPc = s.wordAtPc := (congrArg State.wordAtPc hfetched :)
    rw [steps_succ_of_next hsteps, step_ready htrun hw, hword, hdec, hfetched]
  · exact steps_fetchStalled hrun (State.roomFor_mono hroom (by omega)) (by omega)

/-- Settles O59: the instruction's stalls, and then its step without waits. -/
theorem loadAndStoreTakeTheirWaits : Obligations.LoadAndStoreTakeTheirWaits := by
  intro s hrun hq
  refine ⟨fun hdec hroom => ?_, fun hdec hroom => ?_⟩
  · rw [← State.waitsLeft_load hdec] at hroom ⊢
    obtain ⟨t, hsteps, ht, htrun, hw⟩ := exists_steps_waitsLeft hrun hroom
    obtain ⟨_, _, _, _, rfl⟩ := ht.exists_eq
    obtain ⟨hfetch, hport⟩ := State.ports_ready_of_load hw hdec
    exact (steps_succ_of_next hsteps).trans (step_load htrun hq hfetch hdec hport)
  · rw [← State.waitsLeft_store hdec] at hroom ⊢
    obtain ⟨t, hsteps, ht, htrun, hw⟩ := exists_steps_waitsLeft hrun hroom
    obtain ⟨_, _, _, _, rfl⟩ := ht.exists_eq
    obtain ⟨hfetch, hport⟩ := State.ports_ready_of_store hw hdec
    exact (steps_succ_of_next hsteps).trans (step_store htrun hq hfetch hdec hport)

/-- Settles O60, by induction on the steps of the one machine. -/
theorem latencyChangesOnlyCounts : Obligations.LatencyChangesOnlyCounts := by
  intro s t s' m h hwidth hm
  induction m generalizing s t with
  | zero => cases hm; exact ⟨0, t, rfl, h.symm⟩
  | succ m ih =>
    obtain ⟨s₁, hs₁, hm⟩ := exists_step_of_steps_succ hm
    obtain ⟨n, t₁, hn, h₁⟩ := exists_steps_of_step h hwidth hs₁
    obtain ⟨-, hparams⟩ := steps_imem_params hn
    obtain ⟨k, t', hk, ht'⟩ := ih s₁ t₁ h₁ ((congrArg Params.cycleWidth hparams).trans hwidth) hm
    exact ⟨n + k, t', by simp only [steps_add, hn, hk], ht'⟩

end Sys2Proof.Claims
